-- ==== Sys2Proof/Word.lean ====
section
/-! DEFINITION. The words of the HUFF core's register window and its bit strings. -/

namespace Sys2Proof

/-- A register of the host window and a command word: 32 bits (R31, R130). -/
abbrev Word := BitVec 32

/-- A bit string (R11): a finite sequence of bits, first bit first. It is never a number. -/
abbrev Bits := List Bool

end Sys2Proof
end

