-- ==== Sys2Proof/Syntax.lean ====
section
/-! DEFINITION. The commands of the HUFF core, one constructor per row of spec/opcode_table.json, and the fields of the
one command format, CMD32. -/

namespace Sys2Proof

/-- The fourteen legal commands (R134, R135). Commands have no immediate operands (R131): their operands are the whole
registers ARG0 and ARG1, and the F bit, which separates the two rows of ENC_COMPRESS. -/
inductive Instr where
  /-- NOP (R165) -/
  | nop
  /-- FC_CLEAR (R180) -/
  | fcClear
  /-- FC_COUNT (R181) -/
  | fcCount
  /-- FC_GET (R182) -/
  | fcGet
  /-- FC_ADD (R183) -/
  | fcAdd
  /-- FC_SET (R184) -/
  | fcSet
  /-- TB_BUILD (R200) -/
  | tbBuild
  /-- CT_MAKE (R220) -/
  | ctMake
  /-- CT_GET (R223) -/
  | ctGet
  /-- HC_WRITE (R240) -/
  | hcWrite
  /-- HC_READ (R243) -/
  | hcRead
  /-- ENC_COMPRESS with F = 0 (R260) -/
  | encCompress
  /-- ENC_COMPRESS.F, the same command with F = 1 (R260) -/
  | encCompressF
  /-- DEC_DECOMPRESS (R280) -/
  | decDecompress
  deriving DecidableEq, Repr

/-- The fields of a CMD32 word (R130), legal or not. -/
structure CmdWord where
  /-- RES, bits [31:9] -/
  res : BitVec 23
  /-- F, bit [8] -/
  force : Bool
  /-- OP, bits [7:0] -/
  op : BitVec 8
  deriving DecidableEq, Repr

end Sys2Proof
end

