-- ==== Sys2Proof/WellFormed.lean ====
section
/-! DEFINITION. Which command words are legal (R136). A command itself has no field that could be out of range (R131):
what can be ill-formed is the word, by one of the three checks below. -/

namespace Sys2Proof

/-- The thirteen assigned opcodes, by unit (R134). -/
def assignedOpcodes : List (BitVec 8) :=
  [0x00] ++ [0x01, 0x02, 0x03, 0x04, 0x05] ++ [0x10] ++ [0x20, 0x21] ++ [0x30, 0x31] ++ [0x40] ++ [0x50]

/-- OP is one of the thirteen opcodes of R134. -/
def CmdWord.opAssigned (c : CmdWord) : Bool := assignedOpcodes.contains c.op

/-- RES is 0. -/
def CmdWord.resZero (c : CmdWord) : Bool := c.res == 0

/-- F = 1 only with OP = 0x40. -/
def CmdWord.forceAllowed (c : CmdWord) : Bool := !c.force || c.op == 0x40

/-- A command word is legal when none of the three conditions of R136 holds. -/
def CmdWord.wellFormed (c : CmdWord) : Bool := c.opAssigned && c.resZero && c.forceAllowed

end Sys2Proof
end

