-- ==== Sys2Proof/Decode.lean ====
section
/-! DEFINITION. Decoding a command word (R130, R134 to R137) and encoding a command. -/

namespace Sys2Proof

/-- Why a word is illegal (R136), by the check that turns it down. -/
inductive IllegalWord where
  /-- OP is a reserved opcode (R137) -/
  | reservedOpcode (op : BitVec 8)
  /-- RES is not 0 -/
  | reservedBits (res : BitVec 23)
  /-- F = 1 in a command other than ENC_COMPRESS -/
  | forceNotAllowed (op : BitVec 8)
  deriving DecidableEq, Repr

/-- The fields of a command word (R130). -/
def cmdFields (w : Word) : CmdWord :=
  { res := w.extractLsb' 9 23, force := w.getLsbD 8, op := w.extractLsb' 0 8 }

/-- The command word with the given fields (R130). -/
def cmdWordOf (c : CmdWord) : Word := c.res ++ BitVec.ofBool c.force ++ c.op

/-- The command that OP names, F telling the two rows of ENC_COMPRESS apart (R134, R135). -/
def commandOfOp (op : BitVec 8) (force : Bool) : Option Instr :=
  match op.toNat with
  | 0x00 => some .nop
  | 0x01 => some .fcClear
  | 0x02 => some .fcCount
  | 0x03 => some .fcGet
  | 0x04 => some .fcAdd
  | 0x05 => some .fcSet
  | 0x10 => some .tbBuild
  | 0x20 => some .ctMake
  | 0x21 => some .ctGet
  | 0x30 => some .hcWrite
  | 0x31 => some .hcRead
  | 0x40 => some (if force then .encCompressF else .encCompress)
  | 0x50 => some .decDecompress
  | _ => none

/-- The decoder tells the command from OP alone, and then checks RES and F (R130, R136). It is total: each of the 2^32
words is one of the fourteen legal ones or is illegal by name. -/
def decode (w : Word) : Except IllegalWord Instr :=
  let c := cmdFields w
  match commandOfOp c.op c.force with
  | none => .error (.reservedOpcode c.op)
  | some i =>
    if c.resZero then
      if c.forceAllowed then .ok i else .error (.forceNotAllowed c.op)
    else .error (.reservedBits c.res)

/-- The opcode of each command (R134). -/
def opcodeOf : Instr → BitVec 8
  | .nop => 0x00
  | .fcClear => 0x01
  | .fcCount => 0x02
  | .fcGet => 0x03
  | .fcAdd => 0x04
  | .fcSet => 0x05
  | .tbBuild => 0x10
  | .ctMake => 0x20
  | .ctGet => 0x21
  | .hcWrite => 0x30
  | .hcRead => 0x31
  | .encCompress => 0x40
  | .encCompressF => 0x40
  | .decDecompress => 0x50

/-- F is 1 in ENC_COMPRESS.F alone (R135). -/
def forceOf : Instr → Bool
  | .encCompressF => true
  | .nop | .fcClear | .fcCount | .fcGet | .fcAdd | .fcSet | .tbBuild | .ctMake | .ctGet => false
  | .hcWrite | .hcRead | .encCompress | .decDecompress => false

/-- The one legal word of each command (R135). -/
def encode (i : Instr) : Word := cmdWordOf { res := 0, force := forceOf i, op := opcodeOf i }

/-- The command this decoder reads from a word of `nbits` bits numbered as spec/opcode_table.json numbers them: bit 0
is bit 0 of CMD, and every bit of CMD above `nbits` is 0. -/
def decodeTableWord (nbits w : Nat) : Option Instr :=
  if nbits ≤ 32 then
    match decode (BitVec.ofNat 32 (w % 2 ^ nbits)) with
    | .ok i => some i
    | .error _ => none
  else none

end Sys2Proof
end

