-- ==== Sys2Proof/Config.lean ====
section
/-! DEFINITION. What a build of the core fixes (R9) and the values the spec leaves UNSPECIFIED (I5 to I8). Every
constant without a body is a parameter or a free value: nothing in Lean can evaluate it, so a claim that is proved
holds whatever it is.

The values the source fixes (R8) and the widths this spec decided (R9) are written as numerals in the types:
ALPHA = 256 ordinary symbols, SENT = 256, HDR_SYM_W = 9, MAGIC_W = 32, MAX_LEAVES = 257, COUNT_W = 32, WEIGHT_W = 41,
NODE_CAP = 513, MAX_CODE_LEN = 256, CODE_WORDS = 8, WORD_SIZE = 8. -/

namespace Sys2Proof.Config

/-- The constant of the ID register, the ASCII bytes "HUFF" (R33). -/
def idValue : Word := 0x48554646

/-- HDR_MAGIC (R34, D6): OPEN, fixed when the hardware is built. -/
opaque hdrMagic : Word

/-- SYM_IN_W - 8 (R9, R42, D5): the input symbol width is a build parameter, legal from 8 to 16. -/
opaque symExtra : Fin 9

/-- Whether the platform's bus carries the core's error response (R96): a property of the build. -/
opaque busErrors : Bool

/-- SRC_REWINDABLE of the SRC that is attached when the machine is launched (R9, D25). -/
opaque srcRewindable : Bool

/-- Free value of one 32-bit register or read: RESULT0 and RESULT1 after an error (R38), a result register read
while busy (R107), the data of an access that is refused on the bus (R96). The argument is `State.draws`. -/
opaque freeWord : Nat → Word

/-- Free contents of FREQ after reset (R361): the draw, then the entry. -/
opaque freeCount : Nat → Nat → Word

/-- Free contents of the node memory after reset and after a failed header read (R360, R243): the draw, then the
slot; the fields are kind (true for a leaf), sym, weight, left and right. -/
opaque freeSlot : Nat → Nat → Bool × BitVec 9 × BitVec 41 × Fin 513 × Fin 513

/-- Free contents of ROOT, NLEAVES and NNODES in the same places (R45, R360): meaningless while TREE_VALID = 0. -/
opaque freeTreeRegs : Nat → Fin 513 × Fin 258 × Fin 514

/-- Free contents of CODE after reset and after a failed CT_MAKE (R47, R220): the draw, then the entry; the fields are
present, len and bits. -/
opaque freeCode : Nat → Nat → Bool × BitVec 9 × BitVec 256

end Sys2Proof.Config
end

