-- ==== Sys2Proof/Machine/State.lean ====
section
/-! DEFINITION. The state of the HUFF core (R30): the host register window, the unit memories, the command sequencer and
the port streams, with what the model adds to let a run be written down: the schedule of what the outside world does,
the answer of the last bus access, and the counter of free values. -/

namespace Sys2Proof.Machine

/-- The nine error kinds (R320). -/
inductive ErrKind where
  | invalidSymbol
  | formatError
  | unexpectedEndOfInput
  | preconditionError
  | illegalCommand
  | countOverflow
  | treeOverflow
  | treeError
  | rewindUnsupported
  deriving DecidableEq, Repr

/-- The fields of STATUS (R36). Its reserved bits have no storage: they read 0 (I13). -/
structure Status where
  busy : Bool
  done : Bool
  err : Bool
  treeValid : Bool
  tableValid : Bool
  wrote : Bool
  errcode : BitVec 4
  deriving DecidableEq, Repr

/-- A slot number of the node memory, NODE_CAP = 513 slots (R44). -/
abbrev Slot := Fin 513

/-- One slot of the node memory (R44), with the node kinds of R15. -/
inductive Node where
  | leaf (sym : BitVec 9) (weight : BitVec 41)
  | internal (left right : Slot) (weight : BitVec 41)
  deriving DecidableEq, Repr

/-- One entry of the code table (R47). Bit j of `bits` is c[j]; the positions from `len` on hold 0. -/
structure CodeEntry where
  present : Bool
  len : BitVec 9
  bits : BitVec 256
  deriving DecidableEq, Repr

/-- The bit source SRC (R53): its finite bit string, its cursor src.pos, and whether it can rewind. -/
structure Src where
  bits : Bits
  pos : Nat
  rewindable : Bool
  /-- the model's own: where the collaborators last put the cursor, which is the first bit of the archive they present
  (R111, duty 4; R365, step 4; log entry 19) -/
  start : Nat
  deriving DecidableEq, Repr

/-- What is fixed when the hardware is built (R9): the constant registers MAGIC and CONFIG.SYM_IN_W show the first two,
and the third says whether the platform's bus has an error response (R96). No step changes them. -/
structure BuildParams where
  /-- HDR_MAGIC, the value of MAGIC (R34) -/
  hdrMagic : Word
  /-- SYM_IN_W - 8, so that the width is a legal one, 8 to 16 (R42) -/
  symExtra : Fin 9
  busErrors : Bool
  deriving DecidableEq, Repr

/-- SYM_IN_W (R9, R42). -/
def BuildParams.symInW (b : BuildParams) : Nat := b.symExtra.val + 8

/-- PHASE (R49). `run k`: a command has been accepted and has performed k of its observable actions, that is its port
transactions and those of its writes of STATUS flags that stand between its start and its completion; the memories and streams of State are those of its acceptance until it
completes (log entry 6). -/
inductive Phase where
  | idle
  | run (actions : Nat)
  deriving DecidableEq, Repr

/-- The working state of the running command (R49): every command starts it afresh and nothing in it survives. -/
structure Work where
  /-- the pass of ENC_COMPRESS, 0 outside it (R260) -/
  pass : Nat
  /-- the decoder's pointer P (R50) -/
  walker : Slot
  /-- n of the header reader: node slots taken (R243) -/
  slots : Nat
  /-- b of the header codec: header bits so far (R240, R243) -/
  hdrBits : Nat
  /-- m of the decoder: symbols written (R280) -/
  symbols : Nat
  deriving DecidableEq, Repr

def Work.fresh : Work := { pass := 0, walker := 0, slots := 0, hdrBits := 0, symbols := 0 }

/-- What the bus answered to the host's last access (R95, R96). -/
inductive BusResponse where
  /-- no access yet, or one made while reset was asserted, which the core does not accept (R360) -/
  | none
  /-- a read's 32 bits -/
  | data (v : Word)
  /-- a write was taken, with whatever effect it has (R98) -/
  | written
  /-- the error response, with the UNSPECIFIED data it carries (R96) -/
  | error (v : Word)
  deriving DecidableEq, Repr

/-- What the outside world does to the core, and when it leaves the core to run on. -/
inductive Event where
  /-- the host reads `size` bytes at byte offset `off` of the window (R95) -/
  | hostRead (off size : Nat)
  /-- the host writes `size` bytes at byte offset `off` of the window (R95) -/
  | hostWrite (off size : Nat) (v : Word)
  /-- the running command performs `n` more of its observable actions, and goes on running (R376) -/
  | coreAdvance (n : Nat)
  /-- the core's completion step (R376) -/
  | coreComplete
  /-- the reset input is asserted (R360, R363) -/
  | resetAssert
  /-- the reset input is released (R360) -/
  | resetRelease
  /-- between commands the collaborators leave SRC at a cursor that splits its bits in two, where the next input or
  archive begins, and SNK holding some bits (R53, R365) -/
  | collaborate (before after : Bits) (rewindable : Bool) (snk : Bits)
  deriving DecidableEq, Repr

/-- The machine's state. -/
structure State where
  /-- MAGIC, CONFIG.SYM_IN_W and the platform's bus (R34, R42, R96) -/
  build : BuildParams
  /-- CMD (R35) -/
  cmd : Word
  /-- STATUS (R36) -/
  status : Status
  /-- ARG0 (R32) -/
  arg0 : Word
  /-- ARG1 (R32) -/
  arg1 : Word
  /-- RESULT0 (R38) -/
  result0 : Word
  /-- RESULT1 (R38) -/
  result1 : Word
  /-- TOTAL (R39) -/
  total : Word
  /-- SKIPPED (R40) -/
  skipped : Word
  /-- ERRINFO (R41) -/
  errinfo : Word
  /-- FREQ (R43) -/
  freq : Vector Word 256
  /-- NODE (R44) -/
  node : Vector Node 513
  /-- ROOT (R45) -/
  root : Slot
  /-- NLEAVES, 0 to 257 (R45) -/
  nleaves : Nat
  /-- NNODES, 0 to 513 (R45) -/
  nnodes : Nat
  /-- CODE (R47) -/
  code : Vector CodeEntry 257
  /-- PHASE (R49) -/
  phase : Phase
  /-- the working state of the running command (R49) -/
  work : Work
  /-- SRC (R53), which belongs to the collaborators -/
  src : Src
  /-- snk.bits (R53), which belongs to the collaborators -/
  snk : Bits
  /-- the reset input is asserted (R360) -/
  resetLine : Bool
  /-- the model's own: what the outside world will do next, first event first -/
  agenda : List Event
  /-- the model's own: the answer to the host's last access -/
  bus : BusResponse
  /-- the model's own: how many free values have been drawn -/
  draws : Nat
  deriving DecidableEq, Repr

/-- The core never stops with a fault: an error ends the running command and is reported in STATUS and ERRINFO (R320,
R330), and a bad access is answered on the bus (R96). So there is no fault to name. -/
inductive Fault
  deriving DecidableEq, Repr

/-- Why the model has no next state. -/
inductive Refusal where
  /-- raised by `exec` for an instruction that has no meaning yet; safe -/
  | notModelled (mnemonic : String)
  /-- raised by a host access that is not an aligned 32-bit access of the window, on a platform whose bus has no error
  response: R96 has the model refuse it; safe -/
  | badWindowAccess
  /-- raised by a collaborator that moves SRC or SNK while a command runs: duty 2 of R111 and R53, and a model has no move
  that breaks a duty (I10); safe where a collaborator keeps its duties -/
  | streamMovedDuringCommand
  /-- raised by a host that starts a command with SRC's cursor where duty 3 or duty 4 of R111 does not let it be: a model
  has no move that breaks a duty (I10, R372); safe where the host keeps its duties -/
  | srcOutOfPlace
  deriving DecidableEq, Repr

/-- STATUS after reset (R360). -/
def Status.clear : Status :=
  { busy := false, done := false, err := false, treeValid := false, tableValid := false, wrote := false, errcode := 0 }

/-- FREQ with every entry drawn (R361). -/
def drawFreq (d : Nat) : Vector Word 256 := ⟨((List.range 256).map (Config.freeCount d)).toArray, by simp⟩

/-- A node slot with free contents. -/
def nodeOfDraw : Bool × BitVec 9 × BitVec 41 × Slot × Slot → Node
  | (true, sym, weight, _, _) => .leaf sym weight
  | (false, _, weight, left, right) => .internal left right weight

/-- The node memory with every slot drawn (R360, R243). -/
def drawNode (d : Nat) : Vector Node 513 :=
  ⟨((List.range 513).map fun i => nodeOfDraw (Config.freeSlot d i)).toArray, by simp⟩

/-- A code entry with free contents. -/
def codeOfDraw : Bool × BitVec 9 × BitVec 256 → CodeEntry
  | (present, len, bits) => { present, len, bits }

/-- CODE with every entry drawn (R360, R220). -/
def drawCode (d : Nat) : Vector CodeEntry 257 :=
  ⟨((List.range 257).map fun i => codeOfDraw (Config.freeCode d i)).toArray, by simp⟩

/-- The state when reset is released (R360), with the streams and the build that stay as they are and the free contents
of FREQ, NODE, ROOT, NLEAVES, NNODES and CODE taken from draw `d`. -/
def State.resetWith (build : BuildParams) (src : Src) (snk : Bits) (agenda : List Event) (d : Nat) : State :=
  { build, cmd := 0, status := Status.clear, arg0 := 0, arg1 := 0, result0 := 0, result1 := 0,
    total := 0, skipped := 0, errinfo := 0,
    freq := drawFreq d, node := drawNode d,
    root := (Config.freeTreeRegs d).1, nleaves := (Config.freeTreeRegs d).2.1.val,
    nnodes := (Config.freeTreeRegs d).2.2.val, code := drawCode d,
    phase := .idle, work := Work.fresh, src, snk, resetLine := false, agenda, bus := .none, draws := d + 1 }

/-- The machine right after reset, any build, with an empty SRC and an empty SNK and nothing scheduled. -/
def State.reset : State :=
  State.resetWith
    { hdrMagic := Config.hdrMagic, symExtra := Config.symExtra, busErrors := Config.busErrors }
    { bits := [], pos := 0, rewindable := Config.srcRewindable, start := 0 } [] [] 0

end Sys2Proof.Machine
end

