-- ==== Sys2Proof/Machine/Flags.lean ====
section
/-! DEFINITION. STATUS: its word, its error codes, and what acceptance, completion and an error do to its flags. -/

namespace Sys2Proof.Machine

/-- The code of an error kind in STATUS.ERRCODE (R320). -/
def errCode : ErrKind → BitVec 4
  | .invalidSymbol => 1
  | .formatError => 2
  | .unexpectedEndOfInput => 3
  | .preconditionError => 4
  | .illegalCommand => 5
  | .countOverflow => 6
  | .treeOverflow => 7
  | .treeError => 8
  | .rewindUnsupported => 9

/-- STATUS as a register (R36): reserved bits [7:6] and [31:12] read 0. -/
def statusWord (f : Status) : Word :=
  0#20 ++ f.errcode ++ 0#2 ++ BitVec.ofBool f.wrote ++ BitVec.ofBool f.tableValid ++ BitVec.ofBool f.treeValid
    ++ BitVec.ofBool f.err ++ BitVec.ofBool f.done ++ BitVec.ofBool f.busy

/-- The flags when a command is accepted (R160): TREE_VALID and TABLE_VALID are not changed. -/
def acceptFlags (f : Status) : Status :=
  { f with done := false, err := false, errcode := 0, wrote := false, busy := true }

/-- The flags when a command is done (R163). -/
def doneFlags (f : Status) : Status := { f with busy := false, done := true }

/-- The flags when a command ends in an error (R330). -/
def raiseFlags (e : ErrKind) (f : Status) : Status :=
  { f with errcode := errCode e, err := true, busy := false, done := true }

end Sys2Proof.Machine
end

