-- ==== Sys2Proof/Machine/Ops.lean ====
section
/-! DEFINITION. The operations every command shares: accepting a command, completing it, ending it in an error, the
port transactions, and how a command's rule is run. -/

namespace Sys2Proof.Machine

/-! ### Numbers and bit strings -/

/-- The value of a field read most significant bit first (R80). -/
def bitsToNat (b : Bits) : Nat := b.foldl (fun v x => 2 * v + x.toNat) 0

/-- The n low bits of v, most significant first (R83). -/
def natToBits : Nat → Nat → Bits
  | 0, _ => []
  | n + 1, v => v.testBit n :: natToBits n v

/-! ### The sequencer: acceptance, completion, error -/

/-- Acceptance of the word v (R160). The next accepted command is also the only return from an error (R333). -/
def accept (v : Word) (s : State) : State :=
  { s with cmd := v, status := acceptFlags s.status, errinfo := 0, phase := .run 0, work := Work.fresh }

/-- `done` (R163). Nothing in the working state survives (R49). -/
def done (s : State) : State := { s with status := doneFlags s.status, phase := .idle, work := Work.fresh }

/-- `raise E(info)` (R330), the core's one exception entry: it records the error and ends the command; there is no
handler and no saved program counter. -/
def raiseEntry (e : ErrKind) (info : Word) (s : State) : State :=
  { s with errinfo := info, status := raiseFlags e s.status, phase := .idle, work := Work.fresh }

/-- RESULT0 and RESULT1 take free values (R38, R331). -/
def drawResults (s : State) : State :=
  { s with result0 := Config.freeWord s.draws, result1 := Config.freeWord (s.draws + 1), draws := s.draws + 2 }

/-- A command ends in the error e: the entry of R330, and results no one may use (R38). -/
def endInError (e : ErrKind) (info : Word) (s : State) : State := raiseEntry e info (drawResults s)

/-- An accepted illegal word starts no operation and completes at once (R136, R164), with results no one may use, as
after every error (R38, R331; log entry 3). -/
def rejectIllegal (s : State) : State := endInError .illegalCommand 0 s

/-! ### Running a command's rule -/

/-- The state of a run of a command's rule: the machine, and how many more observable actions it may perform (`none`: as
many as it takes). -/
structure Run where
  st : State
  left : Option Nat

/-- How a command's rule stops short of its end: by an error, or because it is to go on later. -/
inductive Stop where
  | raised (e : ErrKind) (info : Word)
  | paused

/-- A piece of a command's rule. A raise keeps every write and transaction made before it (R331). -/
abbrev Cmd := EStateM Stop Run

def getState : Cmd State := fun r => .ok r.st r

def modState (f : State → State) : Cmd Unit := fun r => .ok () { r with st := f r.st }

/-- `raise E(info)` inside a rule (R14). -/
def raise {α : Type} (e : ErrKind) (info : Word) : Cmd α := fun r => .error (.raised e info) r

/-- The rule does not end here: it would go on for ever. -/
def stillRunning {α : Type} : Cmd α := fun r => .error .paused r

/-- One observable action: a port transaction or a write of a STATUS flag. -/
def tick : Cmd Unit := fun r =>
  match r.left with
  | none => .ok () r
  | some 0 => .error .paused r
  | some (k + 1) => .ok () { r with left := some k }

/-- From here on the rule's writes are one instant with the command's completion: while the command is still to be seen
running, it has not come past this point. -/
def completing : Cmd Unit := fun r =>
  match r.left with
  | none => .ok () r
  | some _ => .error .paused r

/-- Runs x and, if it raises an error, leaves the state it declares UNSPECIFIED as f makes it (R331). -/
def unspecifiedOnError {α : Type} (f : State → State) (x : Cmd α) : Cmd α := fun r =>
  match x.run r with
  | .error (.raised e info) r' => .error (.raised e info) { r' with st := f r'.st }
  | other => other

/-- The state after a command's rule was run from s: it is done, it ended in an error, or it is running still. -/
def settle (s : State) : EStateM.Result Stop Run Unit → State
  | .ok _ r => done r.st
  | .error (.raised e info) r => endInError e info r.st
  | .error .paused _ => s

/-- A command from its acceptance to its completion. Every accepted command completes (R166): an error is a completion
too, so the answer is always a next state. -/
def runCommand (c : Cmd Unit) (s : State) : Host.Outcome State Fault Refusal := .next (settle s (c.run ⟨s, none⟩))

/-- The machine as it stands after the first k observable actions of c, before its completion (log entry 6). -/
def afterActions (c : Cmd Unit) (k : Nat) (s : State) : State :=
  match c.run ⟨s, some k⟩ with
  | .ok _ r => r.st
  | .error _ r => r.st

/-! ### Port transactions -/

/-- How many bits SRC has left. -/
def srcLeft (s : State) : Nat := s.src.bits.length - s.src.pos

/-- The value of SRC's next n bits (R80). -/
def srcField (n : Nat) (s : State) : Nat := bitsToNat ((s.src.bits.drop s.src.pos).take n)

/-- SRC's cursor moves (R80, R81). -/
def setSrcPos (p : Nat) (s : State) : State := { s with src := { s.src with pos := p } }

/-- SNK's bit string grows (R83). -/
def appendSnk (b : Bits) (s : State) : State := { s with snk := s.snk ++ b }

/-- `SrcRead(n)` (R80): a value, or none for EOS, which consumes the bits that are left. -/
def srcRead (n : Nat) : Cmd (Option Nat) := do
  tick
  let s ← getState
  if n ≤ srcLeft s then
    modState (setSrcPos (s.src.pos + n))
    pure (some (srcField n s))
  else
    modState (setSrcPos s.src.bits.length)
    pure none

/-- `SrcRewind()` (R81). -/
def srcRewind : Cmd Unit := do
  tick
  modState (setSrcPos 0)

/-- `SnkWrite(n, v)` (R83): SNK never refuses a write. -/
def snkWrite (n v : Nat) : Cmd Unit := do
  tick
  modState (appendSnk (natToBits n v))

/-- Each bit of a bit string by a write of its own (R86). -/
def snkWriteBits : Bits → Cmd Unit
  | [] => pure ()
  | b :: rest => do
    snkWrite 1 b.toNat
    snkWriteBits rest

/-! ### STATUS flags a command's own rule writes

A write by `modState` stands at the command's start or at its completion; a write that can be seen by itself is an action
of its own (log entry 9). -/

def putTreeValid (b : Bool) (s : State) : State := { s with status := { s.status with treeValid := b } }

def putTableValid (b : Bool) (s : State) : State := { s with status := { s.status with tableValid := b } }

def putWrote (b : Bool) (s : State) : State := { s with status := { s.status with wrote := b } }

def setTreeValid (b : Bool) : Cmd Unit := do
  tick
  modState (putTreeValid b)

def setTableValid (b : Bool) : Cmd Unit := do
  tick
  modState (putTableValid b)

def setWrote (b : Bool) : Cmd Unit := do
  tick
  modState (putWrote b)

/-! ### Registers and unit memories -/

def setResults (r0 r1 : Word) (s : State) : State := { s with result0 := r0, result1 := r1 }

/-- A size of up to 64 bits in RESULT1:RESULT0 (R38, D29). -/
def setSizeResult (n : Nat) (s : State) : State :=
  setResults (BitVec.ofNat 32 n) (BitVec.ofNat 32 (n / 2 ^ 32)) s

/-- The greatest value of a 32-bit counter, 2^32 - 1 (R186). -/
def countMax : Word := 0xFFFFFFFF

/-- FREQ, TOTAL and SKIPPED at zero (R180, R186). -/
def clearCounts (s : State) : State := { s with freq := Vector.replicate 256 0, total := 0, skipped := 0 }

/-- FREQ[s] <- v. -/
def setFreq (i : Fin 256) (v : Word) (s : State) : State := { s with freq := s.freq.set i.val v }

/-- NODE[i] <- x. -/
def setNode (i : Slot) (x : Node) (s : State) : State := { s with node := s.node.set i.val x }

/-- CODE[i] <- e. -/
def setCode (i : Fin 257) (e : CodeEntry) (s : State) : State := { s with code := s.code.set i.val e }

/-- The slot with number n; numbers in use are below NODE_CAP (R205, R244). -/
def slotOf (n : Nat) : Slot := Fin.ofNat 513 n

/-- The tree is UNSPECIFIED: the node memory with ROOT, NLEAVES and NNODES (R243, R331). -/
def scrambleTree (s : State) : State :=
  { s with node := drawNode s.draws, root := (Config.freeTreeRegs s.draws).1,
           nleaves := (Config.freeTreeRegs s.draws).2.1.val, nnodes := (Config.freeTreeRegs s.draws).2.2.val,
           draws := s.draws + 1 }

/-- CODE is UNSPECIFIED (R220, R331). -/
def scrambleCode (s : State) : State := { s with code := drawCode s.draws, draws := s.draws + 1 }

/-- The core's reset (R360), which leaves SRC and SNK to their owners and draws the unspecified memories anew (R361). -/
def coreReset (s : State) : State := State.resetWith s.build s.src s.snk s.agenda s.draws

end Sys2Proof.Machine
end

