-- ==== Sys2Proof/Machine/Operands.lean ====
section
/-! DEFINITION. The operands of commands (R131, R132): the whole 32-bit values of ARG0 and ARG1, never truncated, and the
F bit. -/

namespace Sys2Proof.Machine

/-- ARG0 as a symbol 0 to 255 (FC_GET, FC_ADD, FC_SET): anything above, the sentinel included, is InvalidSymbol. -/
def symbolOperand : Cmd (Fin 256) := do
  let s ← getState
  if h : s.arg0.toNat < 256 then pure ⟨s.arg0.toNat, h⟩ else raise .invalidSymbol s.arg0

/-- ARG0 as a symbol 0 to 256 (CT_GET): the sentinel is legal. -/
def codeSymbolOperand : Cmd (Fin 257) := do
  let s ← getState
  if h : s.arg0.toNat < 257 then pure ⟨s.arg0.toNat, h⟩ else raise .invalidSymbol s.arg0

/-- ARG1 as the count value of FC_SET: any 32-bit value. -/
def countOperand (s : State) : Word := s.arg1

/-- ARG1 as the word index of CT_GET: any value. -/
def wordIndexOperand (s : State) : Nat := s.arg1.toNat

/-- The F bit of a command (R130, R135). -/
def forceOperand (i : Instr) : Bool := forceOf i

end Sys2Proof.Machine
end

