-- ==== Sys2Proof/Machine/Control.lean ====
section
/-! DEFINITION. The command sequencer's own command, NOP (40_control.md). -/

namespace Sys2Proof.Machine

/-- NOP's rule (R165): nothing. -/
def ruleNop : Cmd Unit := pure ()

def execNop (s : State) : Host.Outcome State Fault Refusal := runCommand ruleNop s

end Sys2Proof.Machine
end

