-- ==== Sys2Proof/Machine/CodeTable.lean ====
section
/-! DEFINITION. The code-table generator (43_code_table.md): CT_MAKE and CT_GET. -/

namespace Sys2Proof.Machine

/-- The number whose bit j is bit j of a bit string. -/
def pathToNat : Bits → Nat
  | [] => 0
  | b :: rest => b.toNat + 2 * pathToNat rest

/-- The entry of a symbol whose leaf is reached by a path (R221): the path, then zeros. -/
def entryOfPath (path : Bits) : CodeEntry :=
  { present := true, len := BitVec.ofNat 9 path.length, bits := BitVec.ofNat 256 (pathToNat path) }

/-- The code of an entry, c[0] to c[len - 1] (R47). -/
def codePath (e : CodeEntry) : Bits := (List.range e.len.toNat).map e.bits.getLsbD

/-- An entry with no code (R220). -/
def noCode : CodeEntry := { present := false, len := 0, bits := 0 }

/-- CODE[s] <- {present = 0, len = 0, bits = 0} for every s (R220). -/
def clearCode (s : State) : State := { s with code := Vector.replicate 257 noCode }

/-- The fuel of a walk down the tree: a path has at most MAX_CODE_LEN = 256 steps (R222). -/
def walkFuel : Nat := 257

/-- A leaf's code is recorded (R221). -/
def recordCode (sym : BitVec 9) (path : Bits) : Cmd Unit := do
  let s ← getState
  if h : sym.toNat < 257 then
    if s.code[sym.toNat].present then raise .treeError (sym.setWidth 32)
    else modState (setCode ⟨sym.toNat, h⟩ (entryOfPath path))
  else raise .invalidSymbol (sym.setWidth 32)

/-- `visit(i, path)` (R221): pre-order, left before right. -/
def visit : Nat → Slot → Bits → Cmd Unit
  | 0, _, _ => stillRunning
  | fuel + 1, i, path => do
    let s ← getState
    match s.node[i.val] with
    | .leaf sym _ => recordCode sym path
    | .internal left right _ =>
      visit fuel left (path ++ [false])
      visit fuel right (path ++ [true])

/-- CODE is cleared and filled from the tree (R220). -/
def fillCode : Cmd Unit := do
  modState clearCode
  let s ← getState
  visit walkFuel s.root []

/-- CT_MAKE's rule (R220). TABLE_VALID is 0 for as long as the command runs. After any error CODE is UNSPECIFIED. -/
def ruleCtMake : Cmd Unit := do
  modState (putTableValid false)
  unspecifiedOnError scrambleCode do
    let s ← getState
    if s.status.treeValid = false then raise .preconditionError 0
    else fillCode
  completing
  modState (putTableValid true)

/-- `code_word(e, k)` (R224): bit 31 - j is bit 32k + j of the code, and 0 past its end. -/
def codeWord (e : CodeEntry) (k : Nat) : Word :=
  BitVec.ofNat 32 (bitsToNat ((List.range 32).map fun j =>
    decide (32 * k + j < e.len.toNat) && e.bits.getLsbD (32 * k + j)))

/-- RESULT0 of CT_GET for a present entry: {1, 22 zeros, LEN} (R223). -/
def presentWord (e : CodeEntry) : Word := 1#1 ++ 0#22 ++ e.len

/-- The two results of CT_GET (R223). -/
def codeResults (e : CodeEntry) (k : Nat) : Word × Word :=
  if e.present then (presentWord e, if k < 8 then codeWord e k else 0) else (0, 0)

/-- CT_GET's rule (R223): PreconditionError is checked before InvalidSymbol (R335). -/
def ruleCtGet : Cmd Unit := do
  let s ← getState
  if s.status.tableValid = false then raise .preconditionError 0
  else
    let i ← codeSymbolOperand
    let r := codeResults s.code[i.val] (wordIndexOperand s)
    modState (setResults r.1 r.2)

def execCtMake (s : State) : Host.Outcome State Fault Refusal := runCommand ruleCtMake s
def execCtGet (s : State) : Host.Outcome State Fault Refusal := runCommand ruleCtGet s

end Sys2Proof.Machine
end

