-- ==== Sys2Proof/Machine/HeaderCodec.lean ====
section
/-! DEFINITION. The header codec (44_header_codec.md): HC_WRITE and HC_READ. -/

namespace Sys2Proof.Machine

/-- b <- b + n (R240, R243). -/
def addHdrBits (n : Nat) (s : State) : State := { s with work := { s.work with hdrBits := s.work.hdrBits + n } }

/-- `emit(i)` (R240): pre-order, left before right. -/
def emit : Nat → Slot → Cmd Unit
  | 0, _ => stillRunning
  | fuel + 1, i => do
    let s ← getState
    match s.node[i.val] with
    | .leaf sym _ =>
      snkWrite 1 1
      snkWrite 9 sym.toNat
      modState (addHdrBits 10)
    | .internal left right _ =>
      snkWrite 1 0
      modState (addHdrBits 1)
      emit fuel left
      emit fuel right

/-- `write_header()` (R240); its result stands in the working state. -/
def writeHeader : Cmd Unit := do
  let s ← getState
  snkWrite 32 s.build.hdrMagic.toNat
  modState fun s => { s with work := { s.work with hdrBits := 32 } }
  emit walkFuel s.root

/-- HC_WRITE's rule (R240). -/
def ruleHcWrite : Cmd Unit := do
  let s ← getState
  if s.status.treeValid = false then raise .preconditionError 0
  else
    writeHeader
    modState fun s => setResults (BitVec.ofNat 32 s.work.hdrBits) 0 s

/-- The slot of the next token is taken (R243). -/
def takeSlot (s : State) : State := { s with work := { s.work with slots := s.work.slots + 1 } }

/-- NODE[i] <- Leaf, with weight 0 (R243). -/
def storeLeaf (i : Slot) (sym : Nat) (s : State) : State :=
  { setNode i (.leaf (BitVec.ofNat 9 sym) 0) s with nleaves := s.nleaves + 1 }

/-- `parse()` (R243). A subtree at depth d begins with at least d slots taken, so the fuel NODE_CAP + 1 outlasts the
node-count check; where there is none left, the node memory is full. -/
def parse : Nat → Cmd Slot
  | 0 => raise .treeOverflow 0
  | fuel + 1 => do
    let s ← getState
    if s.work.slots = 513 then raise .treeOverflow 0
    else
      modState takeSlot
      match ← srcRead 1 with
      | none => raise .unexpectedEndOfInput 0
      | some t =>
        modState (addHdrBits 1)
        if t = 1 then
          match ← srcRead 9 with
          | none => raise .unexpectedEndOfInput 0
          | some v =>
            modState (addHdrBits 9)
            modState (storeLeaf (slotOf s.work.slots) v)
            pure (slotOf s.work.slots)
        else
          let left ← parse fuel
          let right ← parse fuel
          modState (setNode (slotOf s.work.slots) (.internal left right 0))
          pure (slotOf s.work.slots)

/-- The fuel of `parse()`: NODE_CAP + 1. -/
def parseFuel : Nat := 514

/-- `read_header()` (R243); its result b stands in the working state. -/
def readHeaderTokens : Cmd Unit := do
  match ← srcRead 32 with
  | none => raise .formatError 0
  | some v =>
    let s ← getState
    if BitVec.ofNat 32 v ≠ s.build.hdrMagic then raise .formatError (BitVec.ofNat 32 v)
    else
      modState fun s => { s with nleaves := 0, work := { s.work with slots := 0, hdrBits := 32 } }
      let root ← parse parseFuel
      modState fun s => { s with root := root, nnodes := s.work.slots }

/-- Neither the tree nor the code table is valid. -/
def putNothingValid (s : State) : State := putTableValid false (putTreeValid false s)

/-- The part HC_READ and DEC_DECOMPRESS share (R243, R280): both flags are cleared at the start, the header is read, and
after an error the node memory is UNSPECIFIED. -/
def readHeader : Cmd Unit := do
  modState putNothingValid
  unspecifiedOnError scrambleTree readHeaderTokens
  setTreeValid true

/-- HC_READ's rule (R243). -/
def ruleHcRead : Cmd Unit := do
  readHeader
  modState fun s => setResults (BitVec.ofNat 32 s.work.hdrBits) (BitVec.ofNat 32 s.nleaves) s

def execHcWrite (s : State) : Host.Outcome State Fault Refusal := runCommand ruleHcWrite s
def execHcRead (s : State) : Host.Outcome State Fault Refusal := runCommand ruleHcRead s

end Sys2Proof.Machine
end

