-- ==== Sys2Proof/Machine/StreamDecoder.lean ====
section
/-! DEFINITION. The bitstream decoder, a tree walker (46_stream_decoder.md): DEC_DECOMPRESS. -/

namespace Sys2Proof.Machine

/-- The child a body bit leads to (R280): left for 0, right for 1. A leaf has no children, and the walker never leaves
from one (R281). -/
def childOf (node : Vector Node 513) (p : Slot) (t : Nat) : Slot :=
  match node[p.val] with
  | .leaf _ _ => p
  | .internal left right _ => if t = 0 then left else right

/-- P <- p (R50). -/
def setWalker (p : Slot) (s : State) : State := { s with work := { s.work with walker := p } }

/-- m <- n (R280). -/
def setSymbols (n : Nat) (s : State) : State := { s with work := { s.work with symbols := n } }

/-- The loop of DEC_DECOMPRESS (R280). The fuel is one more than the bits SRC holds, and each turn reads one. -/
def decodeLoop : Nat → Cmd Unit
  | 0 => stillRunning
  | fuel + 1 => do
    match ← srcRead 1 with
    | none => raise .unexpectedEndOfInput 0
    | some t =>
      let s ← getState
      let p := childOf s.node s.work.walker t
      modState (setWalker p)
      match s.node[p.val] with
      | .internal _ _ _ => decodeLoop fuel
      | .leaf sym _ =>
        if sym = 256 then pure ()
        else if 256 < sym.toNat then raise .invalidSymbol (sym.setWidth 32)
        else if s.work.symbols = 2 ^ 61 - 1 then raise .countOverflow 0
        else
          snkWrite 8 sym.toNat
          modState (setSymbols (s.work.symbols + 1))
          modState (setWalker s.root)
          decodeLoop fuel

/-- The body (R280): a root that is a leaf is settled before the first read (R281). -/
def decodeBody : Cmd Unit := do
  modState (setSymbols 0)
  modState fun s => setWalker s.root s
  let s ← getState
  match s.node[s.root.val] with
  | .leaf sym _ => if sym = 256 then pure () else raise .treeError (sym.setWidth 32)
  | .internal _ _ _ => decodeLoop (srcLeft s + 1)

/-- DEC_DECOMPRESS's rule (R280). -/
def ruleDecompress : Cmd Unit := do
  readHeader
  decodeBody
  modState fun s => setSizeResult (8 * s.work.symbols) s

def execDecDecompress (s : State) : Host.Outcome State Fault Refusal := runCommand ruleDecompress s

end Sys2Proof.Machine
end

