-- ==== Sys2Proof/Machine/FrequencyCounter.lean ====
section
/-! DEFINITION. The frequency counter (41_frequency_counter.md): FC_CLEAR, FC_COUNT, FC_GET, FC_ADD, FC_SET. -/

namespace Sys2Proof.Machine

/-- One in-range symbol is counted (R186). -/
def bumpCount (i : Fin 256) (s : State) : State :=
  { setFreq i (s.freq[i.val] + 1) s with total := s.total + 1 }

/-- One value read by the counter (R185, R186): counted when in range, else counted in SKIPPED; neither counter passes
2^32 - 1. -/
def countSymbol (v : Nat) : Cmd Unit := do
  let s ← getState
  if h : v < 256 then
    if s.total = countMax then raise .countOverflow 0
    else modState (bumpCount ⟨v, h⟩)
  else
    if s.skipped = countMax then raise .countOverflow 0
    else modState fun s => { s with skipped := s.skipped + 1 }

/-- The loop of `count_pass()` (R186). The fuel is one more than the bits SRC holds, and each turn reads some. -/
def countLoop : Nat → Cmd Unit
  | 0 => stillRunning
  | fuel + 1 => do
    let s ← getState
    match ← srcRead s.build.symInW with
    | none => pure ()
    | some v =>
      countSymbol v
      countLoop fuel

/-- `count_pass()` (R186). -/
def countPass : Cmd Unit := do
  modState clearCounts
  let s ← getState
  countLoop (srcLeft s + 1)

/-- FC_CLEAR's rule (R180). -/
def ruleFcClear : Cmd Unit := modState clearCounts

/-- FC_COUNT's rule (R181). -/
def ruleFcCount : Cmd Unit := do
  countPass
  modState fun s => setResults s.total s.skipped s

/-- FC_GET's rule (R182). -/
def ruleFcGet : Cmd Unit := do
  let i ← symbolOperand
  modState fun s => { s with result0 := s.freq[i.val] }

/-- FC_ADD's rule (R183): InvalidSymbol is checked before CountOverflow (R335). -/
def ruleFcAdd : Cmd Unit := do
  let i ← symbolOperand
  let s ← getState
  if s.freq[i.val] = countMax then raise .countOverflow 0
  else modState (setFreq i (s.freq[i.val] + 1))

/-- FC_SET's rule (R184). -/
def ruleFcSet : Cmd Unit := do
  let i ← symbolOperand
  modState fun s => setFreq i (countOperand s) s

def execFcClear (s : State) : Host.Outcome State Fault Refusal := runCommand ruleFcClear s
def execFcCount (s : State) : Host.Outcome State Fault Refusal := runCommand ruleFcCount s
def execFcGet (s : State) : Host.Outcome State Fault Refusal := runCommand ruleFcGet s
def execFcAdd (s : State) : Host.Outcome State Fault Refusal := runCommand ruleFcAdd s
def execFcSet (s : State) : Host.Outcome State Fault Refusal := runCommand ruleFcSet s

end Sys2Proof.Machine
end

