-- ==== Sys2Proof/Machine/TreeBuilder.lean ====
section
/-! DEFINITION. The tree builder, a priority-merge engine (42_tree_builder.md): TB_BUILD. -/

namespace Sys2Proof.Machine

/-- The builder at work: the node memory, the candidate slots C in order of creation, and n, the next slot, which is also
the next creation number (R201, R202). -/
structure Builder where
  node : Vector Node 513
  cands : List Slot
  next : Nat
  deriving DecidableEq, Repr

/-- NODE[n] <- x, and n becomes a candidate. -/
def pushNode (x : Node) (b : Builder) : Builder :=
  { node := b.node.set (slotOf b.next).val x, cands := b.cands ++ [slotOf b.next], next := b.next + 1 }

/-- A node's weight (R44). -/
def weightOf : Node → BitVec 41
  | .leaf _ w => w
  | .internal _ _ w => w

/-- The ordinary symbols in ascending order. -/
def symbols : List (Fin 256) := List.finRange 256

/-- A symbol with a non-zero count gets a leaf (R201). -/
def seedSymbol (freq : Vector Word 256) (b : Builder) (i : Fin 256) : Builder :=
  if freq[i.val] = 0 then b else pushNode (.leaf (BitVec.ofNat 9 i.val) (freq[i.val].setWidth 41)) b

/-- `seed()` (R201): leaves in ascending symbol order, and the sentinel's leaf, of weight 1, always last. -/
def seed (freq : Vector Word 256) (node : Vector Node 513) : Builder :=
  pushNode (.leaf 256 1) (symbols.foldl (seedSymbol freq) { node, cands := [], next := 0 })

/-- The order of candidates (R202): the smaller weight first, and among equal weights the smaller slot. -/
def keyLess (node : Vector Node 513) (a b : Slot) : Bool :=
  decide ((weightOf node[a.val]).toNat < (weightOf node[b.val]).toNat) ||
    (weightOf node[a.val] == weightOf node[b.val] && decide (a.val < b.val))

/-- The candidate with the least key, from a first one and the others. -/
def leastFrom (node : Vector Node 513) : Slot → List Slot → Slot
  | a, [] => a
  | a, b :: rest => leastFrom node (if keyLess node b a then b else a) rest

/-- The least candidate and the others (R202). -/
def takeLeast (node : Vector Node 513) : List Slot → Option (Slot × List Slot)
  | [] => none
  | a :: rest => some (leastFrom node a rest, (a :: rest).erase (leastFrom node a rest))

/-- One turn of `merge` (R202): the two least candidates become the children of a new internal node, the first removed on
the left. Weights have room for every sum (R204). -/
def mergeOnce (b : Builder) : Builder :=
  match takeLeast b.node b.cands with
  | none => b
  | some (x, cands₁) =>
    match takeLeast b.node cands₁ with
    | none => b
    | some (y, cands₂) =>
      pushNode (.internal x y (weightOf b.node[x.val] + weightOf b.node[y.val])) { b with cands := cands₂ }

/-- `merge(n)` (R202): it goes on until one candidate is left; each turn takes one candidate off. -/
def mergeAll : Nat → Builder → Builder
  | 0, b => b
  | fuel + 1, b => if b.cands.length < 2 then b else mergeAll fuel (mergeOnce b)

/-- The tree of a frequency table (R200 to R203), with the slots that are not used as they were. -/
def buildTree (freq : Vector Word 256) (node : Vector Node 513) : Builder :=
  mergeAll (seed freq node).cands.length (seed freq node)

/-- `seed()` and `merge(n)` on the machine: NODE, NLEAVES, ROOT and NNODES (R201, R202). -/
def storeTree (s : State) : State :=
  let b := buildTree s.freq s.node
  { s with node := b.node, nleaves := (seed s.freq s.node).next, root := b.cands.headD 0, nnodes := b.next }

/-- TB_BUILD's rule (R200). -/
def ruleTbBuild : Cmd Unit := do
  setTableValid false
  modState storeTree
  setTreeValid true
  modState fun s => setResults (BitVec.ofNat 32 s.nleaves) (BitVec.ofNat 32 s.nnodes) s

def execTbBuild (s : State) : Host.Outcome State Fault Refusal := runCommand ruleTbBuild s

end Sys2Proof.Machine
end

