-- ==== Sys2Proof/Machine/StreamEncoder.lean ====
section
/-! DEFINITION. The bitstream encoder (45_stream_encoder.md): ENC_COMPRESS and ENC_COMPRESS.F. -/

namespace Sys2Proof.Machine

/-- hdr_bits (R261): the length of the header of a strictly binary tree with NLEAVES leaves (R242). -/
def headerBits (s : State) : Nat := 11 * s.nleaves + 31

/-- body_bits (R261). -/
def bodyBits (s : State) : Nat :=
  (symbols.map fun i => s.freq[i.val].toNat * s.code[i.val].len.toNat).sum + s.code[256].len.toNat

/-- The projected size (R261). -/
def projectedBits (s : State) : Nat := headerBits s + bodyBits s

/-- The uncompressed size (R261): symbol count times word size. -/
def uncompressedBits (s : State) : Nat := s.total.toNat * 8

/-- The number of the pass of ENC_COMPRESS (R49). -/
def setPass (n : Nat) (s : State) : State := { s with work := { s.work with pass := n } }

/-- Pass 1 (R260): count, build the tree, fill the code table, and put the projected size in the results. -/
def compressPass1 : Cmd Unit := do
  modState (setPass 1)
  countPass
  setTableValid false
  modState storeTree
  setTreeValid true
  fillCode
  setTableValid true
  modState fun s => setSizeResult (projectedBits s) s

/-- One symbol of pass 2 (R260): its code, bit by bit; a value with no code is InvalidSymbol. -/
def encodeSymbol (v : Nat) : Cmd Unit := do
  let s ← getState
  if h : v < 256 then
    if s.code[v].present then snkWriteBits (codePath s.code[v])
    else raise .invalidSymbol (BitVec.ofNat 32 v)
  else raise .invalidSymbol (BitVec.ofNat 32 v)

/-- The loop of pass 2 (R260), with fuel as in `countLoop`. -/
def encodeLoop : Nat → Cmd Unit
  | 0 => stillRunning
  | fuel + 1 => do
    let s ← getState
    match ← srcRead s.build.symInW with
    | none => pure ()
    | some v =>
      encodeSymbol v
      encodeLoop fuel

/-- Pass 2 (R260): rewind, the header, the body, and the sentinel's code once. -/
def compressPass2 : Cmd Unit := do
  modState (setPass 2)
  srcRewind
  writeHeader
  let s ← getState
  encodeLoop (srcLeft s + 1)
  let s ← getState
  snkWriteBits (codePath s.code[256])
  setWrote true

/-- The size policy (R263): force, or strictly smaller. -/
def sizePolicy (force : Bool) (s : State) : Bool := force || decide (projectedBits s < uncompressedBits s)

/-- The rule of ENC_COMPRESS (R260) for either value of F. An SRC that cannot rewind is turned down at the boundary. -/
def ruleCompress (force : Bool) : Cmd Unit := do
  let s ← getState
  if s.src.rewindable = false then raise .rewindUnsupported 0
  else
    compressPass1
    let s ← getState
    if sizePolicy force s then compressPass2 else pure ()

def execEncCompress (s : State) : Host.Outcome State Fault Refusal :=
  runCommand (ruleCompress (forceOperand .encCompress)) s

def execEncCompressF (s : State) : Host.Outcome State Fault Refusal :=
  runCommand (ruleCompress (forceOperand .encCompressF)) s

end Sys2Proof.Machine
end

