-- ==== Sys2Proof/Machine/Dispatch.lean ====
section
/-! DEFINITION. One arm for each command. -/

namespace Sys2Proof.Machine

def exec (i : Instr) (s : State) : Host.Outcome State Fault Refusal :=
  match i with
  | .nop => Sys2Proof.Machine.execNop s
  | .fcClear => Sys2Proof.Machine.execFcClear s
  | .fcCount => Sys2Proof.Machine.execFcCount s
  | .fcGet => Sys2Proof.Machine.execFcGet s
  | .fcAdd => Sys2Proof.Machine.execFcAdd s
  | .fcSet => Sys2Proof.Machine.execFcSet s
  | .tbBuild => Sys2Proof.Machine.execTbBuild s
  | .ctMake => Sys2Proof.Machine.execCtMake s
  | .ctGet => Sys2Proof.Machine.execCtGet s
  | .hcWrite => Sys2Proof.Machine.execHcWrite s
  | .hcRead => Sys2Proof.Machine.execHcRead s
  | .encCompress => Sys2Proof.Machine.execEncCompress s
  | .encCompressF => Sys2Proof.Machine.execEncCompressF s
  | .decDecompress => Sys2Proof.Machine.execDecDecompress s

end Sys2Proof.Machine
end

