-- ==== Sys2Proof/Machine/Window.lean ====
section
/-! DEFINITION. The register window and the events that reach the core from outside (20_memory.md sections 4 to 6, R360,
R363), and the machine as it stands while a command runs. -/

namespace Sys2Proof.Machine

/-- The rule of each command, as the meanings of Dispatch.lean run it. -/
def ruleOf : Instr → Cmd Unit
  | .nop => ruleNop
  | .fcClear => ruleFcClear
  | .fcCount => ruleFcCount
  | .fcGet => ruleFcGet
  | .fcAdd => ruleFcAdd
  | .fcSet => ruleFcSet
  | .tbBuild => ruleTbBuild
  | .ctMake => ruleCtMake
  | .ctGet => ruleCtGet
  | .hcWrite => ruleHcWrite
  | .hcRead => ruleHcRead
  | .encCompress => ruleCompress (forceOperand .encCompress)
  | .encCompressF => ruleCompress (forceOperand .encCompressF)
  | .decDecompress => ruleDecompress

/-- The machine as it stands now. While a command runs, that is the accepted machine after the observable actions the
command has performed so far; else it is the state itself. -/
def live (s : State) : State :=
  match s.phase with
  | .idle => s
  | .run k =>
    match decode s.cmd with
    | .ok i => afterActions (ruleOf i) k s
    | .error _ => s

/-- The registers of the window (R31). -/
inductive Reg where
  | id | magic | cmd | status | arg0 | arg1 | result0 | result1 | total | skipped | errinfo | config | reserved
  deriving DecidableEq, Repr

/-- The register at a byte offset of the window (R31); none from 0x40 on. -/
def regAt (off : Nat) : Option Reg :=
  match off / 4 with
  | 0 => some .id
  | 1 => some .magic
  | 2 => some .cmd
  | 3 => some .status
  | 4 => some .arg0
  | 5 => some .arg1
  | 6 => some .result0
  | 7 => some .result1
  | 8 => some .total
  | 9 => some .skipped
  | 10 => some .errinfo
  | 11 => some .config
  | 12 | 13 | 14 | 15 => some .reserved
  | _ => none

/-- The register an access moves, if it is an aligned 32-bit access of the window (R95, R96). -/
def accessedReg (off size : Nat) : Option Reg := if size = 4 ∧ off % 4 = 0 then regAt off else none

/-- CONFIG (R42): reserved bits read 0, and SRC_REWINDABLE is read live. -/
def configWord (s : State) : Word :=
  0#23 ++ BitVec.ofBool s.src.rewindable ++ 0#3 ++ BitVec.ofNat 5 s.build.symInW

/-- The value of a register that holds one (R33 to R42, R99). -/
def regValue (s : State) : Reg → Word
  | .id => Config.idValue
  | .magic => s.build.hdrMagic
  | .cmd => s.cmd
  | .status => statusWord s.status
  | .arg0 => s.arg0
  | .arg1 => s.arg1
  | .result0 => s.result0
  | .result1 => s.result1
  | .total => s.total
  | .skipped => s.skipped
  | .errinfo => s.errinfo
  | .config => configWord s
  | .reserved => 0

/-- The registers that read as UNSPECIFIED while a command runs (R107). -/
def unspecifiedWhileBusy : Reg → Bool
  | .result0 | .result1 | .total | .skipped | .errinfo => true
  | .id | .magic | .cmd | .status | .arg0 | .arg1 | .config | .reserved => false

/-- A free value on the bus. -/
def answerFree (f : Word → BusResponse) (s : State) : State :=
  { s with bus := f (Config.freeWord s.draws), draws := s.draws + 1 }

/-- A read of a register (R98, R107): it changes nothing of the core. STATUS shows its exact current value. -/
def readReg (r : Reg) (s : State) : State :=
  if s.status.busy && unspecifiedWhileBusy r then answerFree .data s
  else { s with bus := .data (regValue (live s) r) }

/-- The effect of a write on the core (R98): none while it is busy, and only CMD, ARG0 and ARG1 take one. -/
def writeEffect (r : Reg) (v : Word) (s : State) : State :=
  if s.status.busy then s
  else
    match r with
    | .cmd => accept v s
    | .arg0 => { s with arg0 := v }
    | .arg1 => { s with arg1 := v }
    | .id | .magic | .status | .result0 | .result1 | .total | .skipped | .errinfo | .config | .reserved => s

/-- A write of a register (R98). -/
def writeReg (r : Reg) (v : Word) (s : State) : State := { writeEffect r v s with bus := .written }

/-- An access the core does not take (R96): an error response, or a refusal where the bus has none. -/
def badAccess (s : State) : Host.Outcome State Fault Refusal :=
  if s.build.busErrors then .next (answerFree .error s) else .refused .badWindowAccess

/-- Whether SRC's cursor is where the host's duties want it when it starts a command (R111): at SRC's first bit for
ENC_COMPRESS (duty 3), and at the first bit of the archive the collaborators present for HC_READ and DEC_DECOMPRESS
(duty 4). -/
def srcInPlace (i : Instr) (src : Src) : Bool :=
  match i with
  | .encCompress | .encCompressF => src.pos == 0
  | .hcRead | .decDecompress => src.pos == src.start
  | .nop | .fcClear | .fcCount | .fcGet | .fcAdd | .fcSet | .tbBuild | .ctMake | .ctGet | .hcWrite => true

/-- Whether a write of a register keeps the host's duties: what starts no command breaks none. -/
def keepsDuties (r : Reg) (v : Word) (s : State) : Bool :=
  s.status.busy || r != .cmd ||
    match decode v with
    | .ok i => srcInPlace i s.src
    | .error _ => true

/-- A host's write: a move that breaks a duty is none of the model's (R111, R372, I10). -/
def hostWriteReg (r : Reg) (v : Word) (s : State) : Host.Outcome State Fault Refusal :=
  if keepsDuties r v s then .next (writeReg r v s) else .refused .srcOutOfPlace

/-- A host access: none is accepted while reset is asserted (R360). -/
def hostAccess (off size : Nat) (take : Reg → State → Host.Outcome State Fault Refusal) (s : State) :
    Host.Outcome State Fault Refusal :=
  if s.resetLine then .next { s with bus := .none }
  else
    match accessedReg off size with
    | some r => take r s
    | none => badAccess s

/-- The running command performs n more observable actions. -/
def advance (n : Nat) (s : State) : State :=
  match s.phase with
  | .idle => s
  | .run k => { s with phase := .run (k + n) }

/-- The core's completion step (R160): it runs the accepted command, or completes an illegal word at once with
IllegalCommand; an idle core waits (R362). -/
def coreMove (s : State) : Host.Outcome State Fault Refusal :=
  match s.phase with
  | .idle => .next s
  | .run _ =>
    match decode s.cmd with
    | .ok i => exec i s
    | .error _ => .next (rejectIllegal s)

/-- Reset is asserted (R363): a running command is abandoned, and the transactions it has issued stay issued. -/
def assertReset (s : State) : State :=
  { coreReset { s with src := (live s).src, snk := (live s).snk } with resetLine := true }

/-- The collaborators leave their streams as they will between commands (R53); while a command runs they have no such
move (R111, duty 2). -/
def collaborate (before after : Bits) (rewindable : Bool) (snk : Bits) (s : State) :
    Host.Outcome State Fault Refusal :=
  match s.phase with
  | .idle => .next { s with src := { bits := before ++ after, pos := before.length, rewindable, start := before.length }, snk }
  | .run _ => .refused .streamMovedDuringCommand

/-- What each event does. -/
def perform (e : Event) (s : State) : Host.Outcome State Fault Refusal :=
  match e with
  | .hostRead off size => hostAccess off size (fun r s => .next (readReg r s)) s
  | .hostWrite off size v => hostAccess off size (fun r => hostWriteReg r v) s
  | .coreAdvance n => .next (advance n s)
  | .coreComplete => coreMove s
  | .resetAssert => .next (assertReset s)
  | .resetRelease => .next { s with resetLine := false }
  | .collaborate before after rewindable snk => collaborate before after rewindable snk s

/-- The machine with the command word w accepted and nothing else to happen first. -/
def withCommand (w : Word) (s : State) : State := { accept w s with agenda := [], resetLine := false }

end Sys2Proof.Machine
end

