-- ==== Sys2Proof/Machine/Step.lean ====
section
/-! DEFINITION. One step of the machine: the next event of the schedule, or, where none is left, the core's own move. -/

namespace Sys2Proof.Machine

/-- The outside world moves first, in the order of `agenda` (R105); with nothing scheduled the core completes the command
that runs, or waits (R106, R362). -/
def step (s : State) : Host.Outcome State Fault Refusal :=
  match s.agenda with
  | [] => coreMove s
  | e :: rest => perform e { s with agenda := rest }

/-- The command word of `nbits` bits where the next step fetches its command: the core has no instruction memory (R109),
so that place is CMD, with the word accepted as by a host write (R160). -/
def State.withFetchWord (s : State) (nbits w : Nat) : State := withCommand (BitVec.ofNat 32 (w % 2 ^ nbits)) s

end Sys2Proof.Machine
end

