-- ==== Sys2Proof/Machine/HostScript.lean ====
section
/-! DEFINITION. The host's side: the three primitives of the assembler syntax and the expansion of each pseudo-instruction
(R140, R141). A host program is the list of its events, to be scheduled in `State.agenda`. -/

namespace Sys2Proof.Machine

/-- `WR off, v` (R140). -/
def hostWr (off : Nat) (v : Word) : Event := .hostWrite off 4 v

/-- `RD off` (R140): the data stands on the bus. -/
def hostRd (off : Nat) : Event := .hostRead off 4

/-- `WAIT` (R140): STATUS is read until BUSY is 0. Any number of reads may show BUSY = 1 before the core completes
(R376): here `polls` of them, and then the one that shows 0. -/
def hostWait (polls : Nat) : List Event := List.replicate polls (hostRd 0x0C) ++ [.coreComplete, hostRd 0x0C]

/-- Which operand registers a command reads (R132): ARG0, ARG1. -/
def readsArgs : Instr → Bool × Bool
  | .fcGet => (true, false)
  | .fcAdd => (true, false)
  | .fcSet => (true, true)
  | .ctGet => (true, true)
  | .nop | .fcClear | .fcCount | .tbBuild | .ctMake => (false, false)
  | .hcWrite | .hcRead | .encCompress | .encCompressF | .decDecompress => (false, false)

/-- The expansion of a pseudo-instruction (R141): its operands in the order ARG0, ARG1, its command word, WAIT. -/
def pseudoInstruction (i : Instr) (a0 a1 : Word) (polls : Nat) : List Event :=
  (if (readsArgs i).1 then [hostWr 0x10 a0] else []) ++ (if (readsArgs i).2 then [hostWr 0x14 a1] else [])
    ++ [hostWr 0x08 (encode i)] ++ hostWait polls

/-- Byte lane k of a register's 32 bits on a bus that numbers bytes (R97). -/
def byteLane (v : Word) (k : Nat) : BitVec 8 := v.extractLsb' (8 * k) 8

end Sys2Proof.Machine
end

