-- ==== Sys2Proof/Safety.lean ====
section
/-! DEFINITION. The terms claims are stated in: trees as the spec draws them, their codes and header tokens, the symbols
of a bit string, how a command ends, and the invariants of the machine. -/

namespace Sys2Proof.Machine

/-! ### Trees -/

/-- A code tree without its slots: strictly binary, a symbol at each leaf (R15, R46). -/
inductive CodeTree where
  | leaf (sym : BitVec 9)
  | node (left right : CodeTree)
  deriving DecidableEq, Repr

/-- The tree below a slot of a node memory, where there is one no deeper than the fuel. -/
def treeOf (node : Vector Node 513) : Nat → Slot → Option CodeTree
  | 0, _ => none
  | fuel + 1, i =>
    match node[i.val] with
    | .leaf sym _ => some (.leaf sym)
    | .internal left right _ =>
      match treeOf node fuel left, treeOf node fuel right with
      | some l, some r => some (.node l r)
      | _, _ => none

/-- The slots a walk from a slot reaches, in pre-order. -/
def slotsOf (node : Vector Node 513) : Nat → Slot → List Slot
  | 0, _ => []
  | fuel + 1, i =>
    match node[i.val] with
    | .leaf _ _ => [i]
    | .internal left right _ => i :: (slotsOf node fuel left ++ slotsOf node fuel right)

/-- The number of leaves. -/
def CodeTree.leafCount : CodeTree → Nat
  | .leaf _ => 1
  | .node l r => l.leafCount + r.leafCount

/-- The number of nodes. -/
def CodeTree.nodeCount : CodeTree → Nat
  | .leaf _ => 1
  | .node l r => l.nodeCount + r.nodeCount + 1

/-- Each leaf's symbol with its path below a path, in pre-order (R221): 0 for a step left, 1 for a step right. -/
def CodeTree.codesBelow : CodeTree → Bits → List (BitVec 9 × Bits)
  | .leaf sym, path => [(sym, path)]
  | .node l r, path => l.codesBelow (path ++ [false]) ++ r.codesBelow (path ++ [true])

/-- Each leaf's symbol with its code. -/
def CodeTree.codes (t : CodeTree) : List (BitVec 9 × Bits) := t.codesBelow []

/-- The symbols of the leaves in pre-order. -/
def CodeTree.symbols (t : CodeTree) : List (BitVec 9) := t.codes.map Prod.fst

/-- The tree token of the header grammar (R241). -/
def CodeTree.tokens : CodeTree → Bits
  | .leaf sym => true :: natToBits 9 sym.toNat
  | .node l r => false :: (l.tokens ++ r.tokens)

/-- One token of a header (R241). -/
inductive HeaderToken where
  | internal
  | leaf (sym : BitVec 9)
  deriving DecidableEq, Repr

/-- The bits of a token. -/
def HeaderToken.bits : HeaderToken → Bits
  | .internal => [false]
  | .leaf sym => true :: natToBits 9 sym.toNat

/-- Where n subtrees are still to be read, whether one is still to be read before each of the tokens and after them all:
then they are the beginning of a header's tree, and not the whole of it. -/
def staysOpen : Nat → List HeaderToken → Bool
  | 0, _ => false
  | _ + 1, [] => true
  | n + 1, .internal :: rest => staysOpen (n + 2) rest
  | n + 1, .leaf _ :: rest => staysOpen n rest

/-- The code of the first leaf for a symbol. -/
def CodeTree.codeOf (t : CodeTree) (sym : BitVec 9) : Option Bits := (t.codes.find? fun p => p.1 == sym).map Prod.snd

/-- The code table of a tree (R47, R48). -/
def CodeTree.table (t : CodeTree) : Vector CodeEntry 257 :=
  Vector.ofFn fun i =>
    match t.codeOf (BitVec.ofNat 9 i.val) with
    | some path => entryOfPath path
    | none => noCode

/-- The tree in the node memory. -/
def State.tree (s : State) : Option CodeTree := treeOf s.node walkFuel s.root

/-- The 32 bits of HDR_MAGIC, most significant first (R85, R241). -/
def State.magicBits (s : State) : Bits := natToBits 32 s.build.hdrMagic.toNat

/-- The bits SRC has left. -/
def State.unread (s : State) : Bits := s.src.bits.drop s.src.pos

/-! ### Symbols of a stream -/

/-- The whole w-bit fields at the front of a bit string, at most `fuel` of them. -/
def fieldsOf (w : Nat) : Nat → Bits → List Nat
  | 0, _ => []
  | fuel + 1, b => if b.length < w then [] else bitsToNat (b.take w) :: fieldsOf w fuel (b.drop w)

/-- The values a counter reads from SRC before EOS (R80, R186): a last partial field is none of them. -/
def State.inputSymbols (s : State) : List Nat := fieldsOf s.build.symInW s.unread.length s.unread

/-- The values in range (R185). -/
def inRange (vs : List Nat) : List Nat := vs.filter (· < 256)

/-- The values out of range (R185). -/
def outOfRange (vs : List Nat) : List Nat := vs.filter (256 ≤ ·)

/-- FREQ after the values vs were counted from an empty table. -/
def countsOf (vs : List Nat) : Vector Word 256 := Vector.ofFn fun i => BitVec.ofNat 32 (vs.count i.val)

/-- The machine after vs was counted, with SRC's cursor at p. -/
def State.counted (s : State) (vs : List Nat) (p : Nat) : State :=
  { s with freq := countsOf vs, total := BitVec.ofNat 32 (inRange vs).length,
             skipped := BitVec.ofNat 32 (outOfRange vs).length, src := { s.src with pos := p } }

/-- A body (R88): the codes of the values, in order. -/
def CodeTree.encodeAll (t : CodeTree) (vs : List Nat) : Bits := vs.flatMap fun v => (t.codeOf (BitVec.ofNat 9 v)).getD []

/-- The bit-length an archive of the values vs would have with this tree (R261): the header, the codes of the values in
range, and the sentinel's code. -/
def CodeTree.archiveBits (t : CodeTree) (vs : List Nat) : Nat :=
  11 * t.leafCount + 31 + (t.encodeAll (inRange vs)).length + ((t.codeOf 256).getD []).length

/-- A sequence of bytes as the bits of a stream, each most significant bit first (R85). -/
def bytesToBits (bytes : List (BitVec 8)) : Bits := bytes.flatMap fun b => natToBits 8 b.toNat

/-! ### What a command leaves -/

/-- A status with TREE_VALID and TABLE_VALID as given. -/
def Status.withValid (f : Status) (tree table : Bool) : Status := { f with treeValid := tree, tableValid := table }

/-- The machine after pass 1 of a compress of vs (R260, D26), where `tree` is the one TB_BUILD makes from its counts. -/
def State.afterPass1 (s : State) (vs : List Nat) (tree : CodeTree) : State :=
  let u := storeTree (s.counted vs s.src.bits.length)
  { u with status := u.status.withValid true true, code := tree.table,
             result0 := BitVec.ofNat 32 (tree.archiveBits vs),
             result1 := BitVec.ofNat 32 (tree.archiveBits vs / 2 ^ 32) }

/-- The machine after a header was read that spells `tree` (R243, R244), its node memory being `node` and SRC's cursor
having moved past the header. -/
def State.afterHeader (s : State) (tree : CodeTree) (node : Vector Node 513) : State :=
  { s with status := s.status.withValid true false, node := node, root := 0, nleaves := tree.leafCount,
             nnodes := tree.nodeCount, src := { s.src with pos := s.src.pos + 32 + tree.tokens.length } }

/-- `node` holds `tree` at slot 0, with weights 0 (R243). -/
def HoldsRebuilt (tree : CodeTree) (node : Vector Node 513) : Prop :=
  treeOf node walkFuel 0 = some tree ∧ ∀ i ∈ slotsOf node walkFuel 0, weightOf node[i.val] = 0

/-- The machine after SNK took some bits and SRC's cursor moved. -/
def State.streamed (s : State) (out : Bits) (moved : Nat) : State :=
  { s with snk := s.snk ++ out, src := { s.src with pos := s.src.pos + moved } }

/-- t is s after its command ended in the error e (R330): RESULT0 and RESULT1 hold any values (R38). -/
def EndsInError (e : ErrKind) (info : Word) (s t : State) : Prop :=
  ∃ r0 r1 d, t =
    { s with errinfo := info, result0 := r0, result1 := r1, draws := d, phase := .idle, work := Work.fresh,
             status := { s.status with errcode := errCode e, err := true, busy := false, done := true } }

/-- The 64-bit size in RESULT1:RESULT0 (R38). -/
def State.sizeResult (s : State) : Nat := s.result1.toNat * 2 ^ 32 + s.result0.toNat

/-! ### Invariants -/

/-- R37, first two points. -/
def Status.consistent (f : Status) : Prop :=
  (f.busy = true → f.done = false ∧ f.err = false ∧ f.errcode = 0) ∧
  (f.err = true ↔ f.errcode ≠ 0) ∧
  (f.err = true → f.done = true)

/-- R37, first two points, and R49: PHASE is RUN exactly while BUSY is 1, and a working state belongs to a run. -/
def State.statusInv (s : State) : Prop :=
  s.status.consistent ∧ (s.status.busy = true ↔ s.phase ≠ .idle) ∧ s.work = Work.fresh

/-- R46: while TREE_VALID is 1, the slots reachable from ROOT form a strictly binary tree with NLEAVES leaves and
NNODES = 2 × NLEAVES - 1 nodes, none reached twice. -/
def State.treeInv (s : State) : Prop :=
  s.status.treeValid = true →
    ∃ t, s.tree = some t ∧ (slotsOf s.node walkFuel s.root).Nodup ∧
      t.leafCount = s.nleaves ∧ t.nodeCount = s.nnodes ∧ s.nnodes + 1 = 2 * s.nleaves

/-- R37, third point, and R48: while TABLE_VALID is 1, TREE_VALID is 1 and CODE is the table of the tree now in the node
memory, whose leaves have distinct symbols, 0 to 256. -/
def State.tableInv (s : State) : Prop :=
  s.status.tableValid = true → s.status.treeValid = true ∧
    ∃ t, s.tree = some t ∧ t.symbols.Nodup ∧ (∀ sym ∈ t.symbols, sym.toNat ≤ 256) ∧ s.code = t.table

/-- R53 and R45: SRC's cursor stands within its bits, and the tree's counts fit their registers. -/
def State.boundsInv (s : State) : Prop := s.src.pos ≤ s.src.bits.length ∧ s.nleaves ≤ 257 ∧ s.nnodes ≤ 513

end Sys2Proof.Machine
end

