-- ==== Sys2Proof/Certificates/Slice0/Obligations.lean ====
section
/-! DEFINITION. The statements for the provers. Each says which rules of spec/ it rests on. A value the spec leaves
UNSPECIFIED stands under an existential quantifier, never as the value the model draws. -/

open Sys2Proof Sys2Proof.Machine

/-! ### Command words (30_encoding.md) -/

/-- R134, R135: the fourteen legal words, each written out from the opcode table. -/
def Obligations.LegalWordsDecode : Prop :=
  decode 0x00000000 = .ok .nop ∧ decode 0x00000001 = .ok .fcClear ∧ decode 0x00000002 = .ok .fcCount ∧
  decode 0x00000003 = .ok .fcGet ∧ decode 0x00000004 = .ok .fcAdd ∧ decode 0x00000005 = .ok .fcSet ∧
  decode 0x00000010 = .ok .tbBuild ∧ decode 0x00000020 = .ok .ctMake ∧ decode 0x00000021 = .ok .ctGet ∧
  decode 0x00000030 = .ok .hcWrite ∧ decode 0x00000031 = .ok .hcRead ∧ decode 0x00000040 = .ok .encCompress ∧
  decode 0x00000140 = .ok .encCompressF ∧ decode 0x00000050 = .ok .decDecompress

/-- R135: ENC_COMPRESS has the two words 0x040 and 0x140, every other command exactly one, 0x000000OP: decode and encode
agree on all 2^32 words. -/
def Obligations.EachCommandHasExactlyItsWord : Prop :=
  encode .encCompress = 0x00000040 ∧ encode .encCompressF = 0x00000140 ∧
  (∀ i, i ≠ .encCompressF → encode i = (opcodeOf i).setWidth 32) ∧
  ∀ (w : Word) (i : Instr), decode w = .ok i ↔ w = encode i

/-- R136: the three conditions that make a word illegal, and no other. -/
def Obligations.IllegalWordsAreTheOnesListed : Prop :=
  ∀ w : Word, (∃ e, decode w = .error e) ↔
    (w.extractLsb' 0 8 ∉ ([0x00, 0x01, 0x02, 0x03, 0x04, 0x05, 0x10, 0x20, 0x21, 0x30, 0x31, 0x40, 0x50] : List (BitVec 8))
      ∨ w.extractLsb' 9 23 ≠ 0 ∨ (w.getLsbD 8 = true ∧ w.extractLsb' 0 8 ≠ 0x40))

/-! ### The sequencer and the window (20_memory.md, 40_control.md, 60_exceptions.md, 70_reset_and_hazards.md) -/

/-- R160, R362: with nothing scheduled, a step of the running core is `exec` of the command CMD decodes to, and the step
adds nothing around it; an idle core waits. -/
def Obligations.StepRunsTheDecodedCommand : Prop :=
  (∀ (s : State) (k : Nat) (i : Instr), s.agenda = [] → s.phase = .run k → decode s.cmd = .ok i → step s = exec i s) ∧
  ∀ s : State, s.agenda = [] → s.phase = .idle → step s = .next s

/-- R376: where the schedule lets the core move before the host's next access, its completion step is `exec` of the
accepted command; and while the command performs more of its actions it goes on running (the schedule and the count of
actions are the model's own, log entries 6 and 8). -/
def Obligations.CoreMovesWhereScheduled : Prop :=
  ∀ (s : State) (rest : List Event) (k n : Nat) (i : Instr), s.phase = .run k → decode s.cmd = .ok i →
    (s.agenda = .coreComplete :: rest → step s = exec i { s with agenda := rest }) ∧
    (s.agenda = .coreAdvance n :: rest → step s = .next { s with agenda := rest, phase := .run (k + n) })

/-- R136, R164, R38: an accepted illegal word completes with IllegalCommand, code 5, when the core moves, be it where the
schedule says or with nothing scheduled; nothing has changed since its acceptance but STATUS and ERRINFO, and RESULT0 and
RESULT1, which hold any values as after every error (log entry 3). -/
def Obligations.IllegalWordRunsNothing : Prop :=
  ∀ (s : State) (rest : List Event) (k : Nat) (e : IllegalWord), s.phase = .run k → decode s.cmd = .error e →
    errCode .illegalCommand = 5 ∧
    (s.agenda = [] → ∃ t, step s = .next t ∧ EndsInError .illegalCommand 0 s t) ∧
    (s.agenda = .coreComplete :: rest →
      ∃ t, step s = .next t ∧ EndsInError .illegalCommand 0 { s with agenda := rest } t)

/-- R160: acceptance of the word a host writes to CMD while BUSY is 0, SRC's cursor being where duties 3 and 4 of R111 want
it for the command that is started: at SRC's first bit for ENC_COMPRESS, at the archive's first bit for HC_READ and
DEC_DECOMPRESS. A write that breaks a duty is refused by name (I10, R372). Where the archive begins is the model's own
account (log entry 19). -/
def Obligations.CmdWriteIsAccepted : Prop :=
  ∀ (s : State) (rest : List Event) (v : Word),
    s.agenda = .hostWrite 0x08 4 v :: rest → s.resetLine = false → s.status.busy = false →
    let duty3 := decode v = .ok .encCompress ∨ decode v = .ok .encCompressF → s.src.pos = 0
    let duty4 := decode v = .ok .hcRead ∨ decode v = .ok .decDecompress → s.src.pos = s.src.start
    (duty3 ∧ duty4 →
      step s = .next
        { s with agenda := rest, bus := .written, cmd := v, errinfo := 0, phase := .run 0, work := Work.fresh,
                 status := { s.status with done := false, err := false, errcode := 0, wrote := false, busy := true } }) ∧
    (¬ (duty3 ∧ duty4) → step s = .refused .srcOutOfPlace)

/-- R162, R98: while BUSY is 1 a write of any register, CMD included, has no effect on the core. -/
def Obligations.BusyWritesAreDropped : Prop :=
  ∀ (s : State) (rest : List Event) (off : Nat) (v : Word),
    s.agenda = .hostWrite off 4 v :: rest → s.resetLine = false → s.status.busy = true → off % 4 = 0 → off < 0x40 →
    step s = .next { s with agenda := rest, bus := .written }

/-- R98: while BUSY is 0 a write of ARG0 or ARG1 stores the value, and a write of any register but those and CMD has no
effect. -/
def Obligations.IdleWritesReachOnlyTheOperands : Prop :=
  ∀ (s : State) (rest : List Event) (off : Nat) (v : Word),
    s.agenda = .hostWrite off 4 v :: rest → s.resetLine = false → s.status.busy = false →
    (off = 0x10 → step s = .next { s with agenda := rest, bus := .written, arg0 := v }) ∧
    (off = 0x14 → step s = .next { s with agenda := rest, bus := .written, arg1 := v }) ∧
    (off % 4 = 0 → off < 0x40 → off ≠ 0x08 → off ≠ 0x10 → off ≠ 0x14 →
      step s = .next { s with agenda := rest, bus := .written })

/-- R31 to R42, R98, R99: what a read returns while BUSY is 0, and that it changes nothing. -/
def Obligations.IdleReadsReturnTheRegisters : Prop :=
  ∀ (s : State) (rest : List Event) (off : Nat),
    s.agenda = .hostRead off 4 :: rest → s.resetLine = false → s.status.busy = false → s.phase = .idle →
    off % 4 = 0 → off < 0x40 →
    ∃ v : Word, step s = .next { s with agenda := rest, bus := .data v } ∧
      (off = 0x00 → v = 0x48554646) ∧ (off = 0x04 → v = s.build.hdrMagic) ∧ (off = 0x08 → v = s.cmd) ∧
      (off = 0x0C → v.toNat =
        s.status.busy.toNat + 2 * s.status.done.toNat + 4 * s.status.err.toNat + 8 * s.status.treeValid.toNat +
          16 * s.status.tableValid.toNat + 32 * s.status.wrote.toNat + 256 * s.status.errcode.toNat) ∧
      (off = 0x10 → v = s.arg0) ∧ (off = 0x14 → v = s.arg1) ∧ (off = 0x18 → v = s.result0) ∧
      (off = 0x1C → v = s.result1) ∧ (off = 0x20 → v = s.total) ∧ (off = 0x24 → v = s.skipped) ∧
      (off = 0x28 → v = s.errinfo) ∧
      (off = 0x2C → v.toNat = s.build.symInW + 256 * s.src.rewindable.toNat) ∧
      (0x30 ≤ off → v = 0)

/-- R107: what a read returns while a command runs. ID, MAGIC, CMD, ARG0, ARG1 and CONFIG are exact; STATUS is the one
the command has made so far, BUSY = 1, by the model's own account of a running command (log entry 6); the result
registers return any value. The draw counter is the model's own. -/
def Obligations.BusyReadsAreExactOrUnspecified : Prop :=
  ∀ (s : State) (rest : List Event) (off k : Nat),
    s.agenda = .hostRead off 4 :: rest → s.resetLine = false → s.status.busy = true → s.phase = .run k →
    off % 4 = 0 → off < 0x40 →
    ∃ (v : Word) (d : Nat), step s = .next { s with agenda := rest, bus := .data v, draws := d } ∧
      (off = 0x00 → v = 0x48554646) ∧ (off = 0x04 → v = s.build.hdrMagic) ∧ (off = 0x08 → v = s.cmd) ∧
      (off = 0x0C → v = statusWord (live { s with agenda := rest }).status ∧ v.getLsbD 0 = true) ∧
      (off = 0x10 → v = s.arg0) ∧ (off = 0x14 → v = s.arg1) ∧
      (off = 0x2C → v.toNat = s.build.symInW + 256 * s.src.rewindable.toNat) ∧ (0x30 ≤ off → v = 0)

/-- R96, I9: an access that is not an aligned 32-bit access of the window changes no state; it gets an error response
with any data, and is refused where the bus has none. -/
def Obligations.BadAccessesChangeNothing : Prop :=
  ∀ (s : State) (rest : List Event) (off size : Nat) (v : Word),
    (s.agenda = .hostRead off size :: rest ∨ s.agenda = .hostWrite off size v :: rest) → s.resetLine = false →
    (size ≠ 4 ∨ off % 4 ≠ 0 ∨ 0x40 ≤ off) →
    (s.build.busErrors = true →
      ∃ (x : Word) (d : Nat), step s = .next { s with agenda := rest, bus := .error x, draws := d }) ∧
    (s.build.busErrors = false → step s = .refused .badWindowAccess)

/-- R360, R363: asserting reset gives every register its reset value, whatever ran; it does not touch the streams, and the
transactions a running command has issued stay issued. While it is asserted no access is accepted, and its release changes
nothing else. That the registers are at their reset values while reset is still asserted is the model's choice (log
entry 11). -/
def Obligations.ResetAbandonsTheCommand : Prop :=
  (∀ (s : State) (rest : List Event) (off size : Nat) (v : Word), s.resetLine = true →
    (s.agenda = .hostRead off size :: rest → step s = .next { s with agenda := rest, bus := .none }) ∧
    (s.agenda = .hostWrite off size v :: rest → step s = .next { s with agenda := rest, bus := .none }) ∧
    (s.agenda = .resetRelease :: rest → step s = .next { s with agenda := rest, resetLine := false })) ∧
  ∀ (s : State) (rest : List Event), s.agenda = .resetAssert :: rest →
    ∃ t, step s = .next t ∧
      t.cmd = 0 ∧ t.status = Status.clear ∧ t.arg0 = 0 ∧ t.arg1 = 0 ∧ t.result0 = 0 ∧ t.result1 = 0 ∧
      t.total = 0 ∧ t.skipped = 0 ∧ t.errinfo = 0 ∧ t.phase = .idle ∧ t.work = Work.fresh ∧ t.build = s.build ∧
      t.agenda = rest ∧ t.resetLine = true ∧
      t.src = (live { s with agenda := rest }).src ∧ t.snk = (live { s with agenda := rest }).snk

/-- R53, R111 duty 2, I10: between commands the collaborators may move the streams and nothing else; while a command runs
there is no such move (for SNK too, log entry 12). -/
def Obligations.StreamsMoveOnlyBetweenCommands : Prop :=
  ∀ (s : State) (rest : List Event) (before after snk : Bits) (rw : Bool),
    s.agenda = .collaborate before after rw snk :: rest →
    (s.phase = .idle → step s = .next
      { s with agenda := rest, snk := snk,
               src := { bits := before ++ after, pos := before.length, rewindable := rw, start := before.length } }) ∧
    (s.phase ≠ .idle → step s = .refused .streamMovedDuringCommand)

/-- R163: `done`. -/
def Obligations.DoneCompletesWithoutError : Prop :=
  ∀ s : State, done s = { s with status := { s.status with busy := false, done := true }, phase := .idle,
                                 work := Work.fresh }

/-- R330, R320: `raise` records the error, with the code of its kind, and ends the command. -/
def Obligations.RaiseRecordsTheError : Prop :=
  (∀ (e : ErrKind) (info : Word) (s : State), raiseEntry e info s =
    { s with errinfo := info, phase := .idle, work := Work.fresh,
             status := { s.status with errcode := errCode e, err := true, busy := false, done := true } }) ∧
  errCode .invalidSymbol = 1 ∧ errCode .formatError = 2 ∧ errCode .unexpectedEndOfInput = 3 ∧
  errCode .preconditionError = 4 ∧ errCode .illegalCommand = 5 ∧ errCode .countOverflow = 6 ∧
  errCode .treeOverflow = 7 ∧ errCode .treeError = 8 ∧ errCode .rewindUnsupported = 9

/-! ### The ports (20_memory.md) -/

/-- R80: `SrcRead(n)`. -/
def Obligations.SrcReadTakesTheNextField : Prop :=
  ∀ (n : Nat) (s : State), 1 ≤ n → n ≤ 32 → (srcRead n).run ⟨s, none⟩ =
    if n ≤ s.src.bits.length - s.src.pos then
      .ok (some (((List.range n).map fun i => (s.src.bits.getD (s.src.pos + i) false).toNat * 2 ^ (n - 1 - i)).sum))
        ⟨{ s with src := { s.src with pos := s.src.pos + n } }, none⟩
    else .ok none ⟨{ s with src := { s.src with pos := s.src.bits.length } }, none⟩

/-- R83: `SnkWrite(n, v)`. -/
def Obligations.SnkWriteAppendsTheField : Prop :=
  ∀ (n v : Nat) (s : State), 1 ≤ n → n ≤ 32 → v < 2 ^ n → (snkWrite n v).run ⟨s, none⟩ =
    .ok () ⟨{ s with snk := s.snk ++ (List.range n).map fun j => v.testBit (n - 1 - j) }, none⟩

/-! ### NOP and the frequency counter (40_control.md, 41_frequency_counter.md) -/

/-- R165: NOP completes, and changes nothing else. -/
def Obligations.NopOnlyCompletes : Prop := encode .nop = 0x00000000 ∧ ∀ s : State, exec .nop s = .next (done s)

/-- R180: FC_CLEAR. -/
def Obligations.FcClearEmptiesTheTable : Prop :=
  encode .fcClear = 0x00000001 ∧
  ∀ s : State, exec .fcClear s = .next (done { s with freq := Vector.replicate 256 0, total := 0, skipped := 0 })

/-- R182: FC_GET, and its InvalidSymbol. -/
def Obligations.FcGetReadsOneEntry : Prop :=
  encode .fcGet = 0x00000003 ∧
  ∀ s : State,
    (∀ h : s.arg0.toNat < 256, exec .fcGet s = .next (done { s with result0 := s.freq[s.arg0.toNat] })) ∧
    (256 ≤ s.arg0.toNat → ∃ t, exec .fcGet s = .next t ∧ EndsInError .invalidSymbol s.arg0 s t)

/-- R183: FC_ADD, its InvalidSymbol, and its CountOverflow, checked second. -/
def Obligations.FcAddIncrementsOneEntry : Prop :=
  encode .fcAdd = 0x00000004 ∧
  ∀ s : State,
    (∀ h : s.arg0.toNat < 256, s.freq[s.arg0.toNat].toNat < 2 ^ 32 - 1 →
      exec .fcAdd s = .next (done { s with freq := s.freq.set s.arg0.toNat (s.freq[s.arg0.toNat] + 1) })) ∧
    (∀ h : s.arg0.toNat < 256, s.freq[s.arg0.toNat].toNat = 2 ^ 32 - 1 →
      ∃ t, exec .fcAdd s = .next t ∧ EndsInError .countOverflow 0 s t) ∧
    (256 ≤ s.arg0.toNat → ∃ t, exec .fcAdd s = .next t ∧ EndsInError .invalidSymbol s.arg0 s t)

/-- R184: FC_SET, and its InvalidSymbol. -/
def Obligations.FcSetStoresOneEntry : Prop :=
  encode .fcSet = 0x00000005 ∧
  ∀ s : State,
    (∀ h : s.arg0.toNat < 256, exec .fcSet s = .next (done { s with freq := s.freq.set s.arg0.toNat s.arg1 })) ∧
    (256 ≤ s.arg0.toNat → ∃ t, exec .fcSet s = .next t ∧ EndsInError .invalidSymbol s.arg0 s t)

/-- R181, R185, R186: FC_COUNT counts every whole symbol SRC has left, skips the values out of range, and leaves every
other part of the machine alone, as long as neither counter would pass 2^32 - 1. -/
def Obligations.FcCountCountsTheInput : Prop :=
  ∀ s : State, (inRange s.inputSymbols).length < 2 ^ 32 → (outOfRange s.inputSymbols).length < 2 ^ 32 →
    exec .fcCount s = .next (done
      { s.counted s.inputSymbols s.src.bits.length with
        result0 := BitVec.ofNat 32 (inRange s.inputSymbols).length,
        result1 := BitVec.ofNat 32 (outOfRange s.inputSymbols).length })

/-- R181, R186, R260, R332: at the first symbol that would make TOTAL or SKIPPED pass 2^32 - 1, FC_COUNT and pass 1 of
ENC_COMPRESS, with either F, end in CountOverflow; the table holds the counts of the symbols before it, SRC stands just
after it, and the tree, the code table and SNK are untouched. -/
def Obligations.CountingStopsAtOverflow : Prop :=
  ∀ (s : State) (i : Instr) (pre post : List Nat) (v : Nat),
    i = .fcCount ∨ (i = .encCompress ∨ i = .encCompressF) ∧ s.src.rewindable = true →
    s.inputSymbols = pre ++ v :: post →
    (inRange pre).length < 2 ^ 32 → (outOfRange pre).length < 2 ^ 32 →
    (v < 256 ∧ (inRange pre).length = 2 ^ 32 - 1 ∨ 256 ≤ v ∧ (outOfRange pre).length = 2 ^ 32 - 1) →
    ∃ t, exec i s = .next t ∧
      EndsInError .countOverflow 0 (s.counted pre (s.src.pos + s.build.symInW * (pre.length + 1))) t

/-! ### The tree builder (42_tree_builder.md) -/

/-- R201: one leaf for each symbol with a non-zero count, in ascending order, then the sentinel's, of weight 1, in the
slots 0, 1, 2, …; NLEAVES is their number. -/
def Obligations.SeedCreatesTheLeavesInOrder : Prop :=
  ∀ s : State,
    let leaves := ((symbols.filter fun i => s.freq[i.val] ≠ 0).map fun i =>
      Node.leaf (BitVec.ofNat 9 i.val) (s.freq[i.val].setWidth 41)) ++ [Node.leaf 256 1]
    let b := seed s.freq s.node
    b.next = leaves.length ∧ leaves.length ≤ 257 ∧ b.cands = (List.range leaves.length).map slotOf ∧
    (∀ k < leaves.length, leaves[k]? = some b.node[(slotOf k).val]) ∧ (storeTree s).nleaves = leaves.length

/-- R202: one merge takes the candidate with the least key (weight, slot), then the least of the others, and makes them
the left and the right child of the next slot, whose weight is their sum. -/
def Obligations.MergeTakesTheTwoLeast : Prop :=
  ∀ b : Builder, b.cands.Nodup → 2 ≤ b.cands.length →
    let less := fun x c : Slot =>
      (weightOf b.node[x.val]).toNat < (weightOf b.node[c.val]).toNat ∨
        weightOf b.node[x.val] = weightOf b.node[c.val] ∧ x < c
    ∃ x y, x ∈ b.cands ∧ y ∈ b.cands ∧ x ≠ y ∧ (∀ c ∈ b.cands, c ≠ x → less x c) ∧
      (∀ c ∈ b.cands, c ≠ x → c ≠ y → less y c) ∧
      mergeOnce b =
        { node := b.node.set (slotOf b.next).val
            (.internal x y (weightOf b.node[x.val] + weightOf b.node[y.val])),
          cands := (b.cands.erase x).erase y ++ [slotOf b.next], next := b.next + 1 }

/-- R200, R205, R46: TB_BUILD sets the flags and the results and changes only the tree; with L non-zero counts and the
sentinel counted, the tree has L leaves, one for each of those symbols, 2L - 1 slots, all reachable once, its root the last
of them, no path longer than L - 1; and it depends on FREQ alone. -/
def Obligations.TbBuildMakesTheTree : Prop :=
  ∀ s : State, ∃ (t : State) (tree : CodeTree),
    let syms := ((symbols.filter fun i => s.freq[i.val] ≠ 0).map fun i => BitVec.ofNat 9 i.val) ++ [256]
    exec .tbBuild s = .next t ∧
    t = done { s with status := s.status.withValid true false, node := t.node, root := t.root,
                      nleaves := syms.length, nnodes := 2 * syms.length - 1,
                      result0 := BitVec.ofNat 32 syms.length, result1 := BitVec.ofNat 32 (2 * syms.length - 1) } ∧
    t.tree = some tree ∧ tree.symbols.Perm syms ∧ tree.leafCount = syms.length ∧
    tree.nodeCount = 2 * syms.length - 1 ∧ t.root.val = 2 * syms.length - 2 ∧
    ((slotsOf t.node walkFuel t.root).map Fin.val).Perm (List.range (2 * syms.length - 1)) ∧
    (∀ p ∈ tree.codes, p.2.length ≤ syms.length - 1) ∧
    ∀ s' t' : State, s'.freq = s.freq → exec .tbBuild s' = .next t' → t'.tree = some tree

/-- R204: no weight overflows in a tree that TB_BUILD made. -/
def Obligations.BuiltWeightsAreExactSums : Prop :=
  ∀ s t : State, exec .tbBuild s = .next t → t.nleaves ≤ 257 ∧ ∀ i ∈ slotsOf t.node walkFuel t.root,
    match t.node[i.val] with
    | .leaf _ w => w.toNat < 2 ^ 32
    | .internal l r w => w.toNat = (weightOf t.node[l.val]).toNat + (weightOf t.node[r.val]).toNat ∧
        w.toNat ≤ 256 * (2 ^ 32 - 1) + 1

/-- R203: from an all-zero table TB_BUILD makes the one-leaf tree: slot 0, the sentinel's leaf. -/
def Obligations.EmptyTableGivesTheOneLeafTree : Prop :=
  ∀ s : State, (∀ i : Fin 256, s.freq[i.val] = 0) →
    ∃ t, exec .tbBuild s = .next t ∧ t.root = 0 ∧ t.tree = some (.leaf 256) ∧ t.nleaves = 1 ∧ t.nnodes = 1 ∧
      (CodeTree.leaf 256).codeOf 256 = some []

/-! ### The code table (43_code_table.md) -/

/-- R220, R221: with a valid tree whose leaves have distinct symbols, 0 to 256, CT_MAKE fills CODE with its codes, sets
TABLE_VALID, and changes nothing else. For as long as CT_MAKE runs, in whatever state, TABLE_VALID is 0 (the count k of the
actions performed is the model's own, log entry 6). -/
def Obligations.CtMakeFillsTheTable : Prop :=
  (∀ (s : State) (tree : CodeTree), s.status.treeValid = true → s.tree = some tree → tree.symbols.Nodup →
    (∀ sym ∈ tree.symbols, sym.toNat ≤ 256) →
    exec .ctMake s = .next (done { s with status := s.status.withValid true true, code := tree.table })) ∧
  ∀ (s : State) (k : Nat), (afterActions (ruleOf .ctMake) k s).status.tableValid = false

/-- R220, R221, R335: CT_MAKE's errors. Without a tree it is PreconditionError; else the first faulty leaf in pre-order
is reported, InvalidSymbol above 256, TreeError for a second leaf of a symbol. TABLE_VALID is 0 and CODE holds any
values. -/
def Obligations.CtMakeReportsTheFirstFault : Prop :=
  ∀ s : State,
    (s.status.treeValid = false →
      ∃ t code, exec .ctMake s = .next t ∧ EndsInError .preconditionError 0
        { s with status := s.status.withValid false false, code := code } t) ∧
    ∀ (tree : CodeTree) (pre post : List (BitVec 9)) (sym : BitVec 9),
      s.status.treeValid = true → s.tree = some tree → tree.symbols = pre ++ sym :: post → pre.Nodup →
      (∀ x ∈ pre, x.toNat ≤ 256) →
      (256 < sym.toNat → ∃ t code, exec .ctMake s = .next t ∧ EndsInError .invalidSymbol (sym.setWidth 32)
        { s with status := s.status.withValid true false, code := code } t) ∧
      (sym ∈ pre → ∃ t code, exec .ctMake s = .next t ∧ EndsInError .treeError (sym.setWidth 32)
        { s with status := s.status.withValid true false, code := code } t)

/-- R224: `code_word`, bit by bit. -/
def Obligations.CodeWordHoldsTheCodeMsbFirst : Prop :=
  ∀ (e : CodeEntry) (k j : Nat), j < 32 →
    (codeWord e k).getLsbD (31 - j) = (decide (32 * k + j < e.len.toNat) && e.bits.getLsbD (32 * k + j))

/-- R223, R335: CT_GET, and its PreconditionError and InvalidSymbol in that order. -/
def Obligations.CtGetReadsOneCode : Prop :=
  encode .ctGet = 0x00000021 ∧
  ∀ s : State,
    (s.status.tableValid = false → ∃ t, exec .ctGet s = .next t ∧ EndsInError .preconditionError 0 s t) ∧
    (s.status.tableValid = true → 256 < s.arg0.toNat →
      ∃ t, exec .ctGet s = .next t ∧ EndsInError .invalidSymbol s.arg0 s t) ∧
    (s.status.tableValid = true → ∀ h : s.arg0.toNat < 257,
      (s.code[s.arg0.toNat].present = false → exec .ctGet s = .next (done { s with result0 := 0, result1 := 0 })) ∧
      (s.code[s.arg0.toNat].present = true →
        exec .ctGet s = .next (done
          { s with result0 := BitVec.ofNat 32 (2 ^ 31 + s.code[s.arg0.toNat].len.toNat),
                   result1 := if s.arg1.toNat < 8 then codeWord s.code[s.arg0.toNat] s.arg1.toNat else 0 })))

/-- R48: while TABLE_VALID is 1 in a state that meets the invariant, CODE[s].present is 1 exactly for the symbols of the
tree's leaves, its code is the path to that leaf, and no code is a prefix of another present symbol's. -/
def Obligations.CodesArePathsAndPrefixFree : Prop :=
  ∀ (s : State) (tree : CodeTree), s.tableInv → s.status.tableValid = true → s.tree = some tree →
    ∀ a : Fin 257,
      (s.code[a.val].present = true ↔ BitVec.ofNat 9 a.val ∈ tree.symbols) ∧
      (s.code[a.val].present = true → (BitVec.ofNat 9 a.val, codePath s.code[a.val]) ∈ tree.codes) ∧
      ∀ b : Fin 257, a ≠ b → s.code[a.val].present = true → s.code[b.val].present = true →
        ¬ codePath s.code[a.val] <+: codePath s.code[b.val]

/-! ### The header codec (44_header_codec.md) -/

/-- R242: a header is 11L + 31 bits long. -/
def Obligations.HeaderLengthIsElevenPerLeaf : Prop :=
  ∀ tree : CodeTree, 32 + tree.tokens.length = 11 * tree.leafCount + 31

/-- R240, R241: HC_WRITE appends the magic and the tree token to SNK, returns 11L + 31, and changes nothing else; without
a tree it is PreconditionError. -/
def Obligations.HcWriteSendsTheHeader : Prop :=
  encode .hcWrite = 0x00000030 ∧
  ∀ s : State,
    (s.status.treeValid = false → ∃ t, exec .hcWrite s = .next t ∧ EndsInError .preconditionError 0 s t) ∧
    ∀ tree : CodeTree, s.status.treeValid = true → s.tree = some tree →
      exec .hcWrite s = .next (done
        { s with snk := s.snk ++ s.magicBits ++ tree.tokens,
                 result0 := BitVec.ofNat 32 (11 * tree.leafCount + 31), result1 := 0 })

/-- R243, R244: HC_READ of a header with at most 513 nodes rebuilds its tree in slots numbered by pre-order from ROOT = 0,
with weights 0, and stops at the first bit after it; nothing but the tree, the flags, the results and SRC's cursor
changes. -/
def Obligations.HcReadRebuildsTheTree : Prop :=
  ∀ (s : State) (tree : CodeTree) (rest : Bits), s.unread = s.magicBits ++ tree.tokens ++ rest → tree.nodeCount ≤ 513 →
    ∃ node, HoldsRebuilt tree node ∧
      (slotsOf node walkFuel 0).map Fin.val = List.range tree.nodeCount ∧
      exec .hcRead s = .next (done
        { s.afterHeader tree node with result0 := BitVec.ofNat 32 (11 * tree.leafCount + 31),
                                       result1 := BitVec.ofNat 32 tree.leafCount })

/-- R243: a stream too short for the magic, or another word in its place, is FormatError: HC_READ and DEC_DECOMPRESS
read no more than 32 bits, write nothing, and leave TREE_VALID = TABLE_VALID = 0; the tree holds any values. -/
def Obligations.ForeignMagicIsFormatError : Prop :=
  ∀ (s : State) (i : Instr), i = .hcRead ∨ i = .decDecompress →
    (s.unread.length < 32 → ∃ t node root nleaves nnodes, exec i s = .next t ∧ EndsInError .formatError 0
      { s with status := s.status.withValid false false, node := node, root := root, nleaves := nleaves,
               nnodes := nnodes, src := { s.src with pos := s.src.bits.length } } t) ∧
    ∀ (w : Word) (rest : Bits), s.unread = natToBits 32 w.toNat ++ rest → w ≠ s.build.hdrMagic →
      ∃ t node root nleaves nnodes, exec i s = .next t ∧ EndsInError .formatError w
        { s with status := s.status.withValid false false, node := node, root := root, nleaves := nleaves,
                 nnodes := nnodes, src := { s.src with pos := s.src.pos + 32 } } t

/-- R243, R335: the errors of a header after its magic, for every sequence of tokens. Where the tokens read so far leave a
subtree still to be read: if they are at most 512 and SRC then ends inside the next token, that is UnexpectedEndOfInput; if
they are 513, no slot is left, and that is TreeOverflow before any more of SRC is read, whatever stands there. -/
def Obligations.BadTreeTokensAreReported : Prop :=
  ∀ (s : State) (i : Instr) (tokens : List HeaderToken), i = .hcRead ∨ i = .decDecompress → staysOpen 1 tokens = true →
    (∀ (part : Bits) (next : HeaderToken), tokens.length ≤ 512 → part <+: next.bits → part ≠ next.bits →
      s.unread = s.magicBits ++ tokens.flatMap HeaderToken.bits ++ part →
      ∃ t node root nleaves nnodes, exec i s = .next t ∧ EndsInError .unexpectedEndOfInput 0
        { s with status := s.status.withValid false false, node := node, root := root, nleaves := nleaves,
                 nnodes := nnodes, src := { s.src with pos := s.src.bits.length } } t) ∧
    ∀ rest : Bits, tokens.length = 513 → s.unread = s.magicBits ++ tokens.flatMap HeaderToken.bits ++ rest →
      ∃ t node root nleaves nnodes, exec i s = .next t ∧ EndsInError .treeOverflow 0
        { s with status := s.status.withValid false false, node := node, root := root, nleaves := nleaves,
                 nnodes := nnodes,
                 src := { s.src with pos := s.src.pos + 32 + (tokens.flatMap HeaderToken.bits).length } } t

/-- R246: the header round trip. -/
def Obligations.HeaderRoundTrip : Prop :=
  ∀ (s₁ : State) (tree : CodeTree), s₁.treeInv → s₁.status.treeValid = true → s₁.tree = some tree →
    ∃ t₁ bits, exec .hcWrite s₁ = .next t₁ ∧ t₁.snk = s₁.snk ++ bits ∧
      ∀ (s₂ : State) (rest : Bits), s₂.build.hdrMagic = s₁.build.hdrMagic → s₂.unread = bits ++ rest →
        ∃ t₂, exec .hcRead s₂ = .next t₂ ∧ t₂.status.treeValid = true ∧ t₂.status.err = s₂.status.err ∧
          t₂.tree = some tree ∧ (∀ i ∈ slotsOf t₂.node walkFuel t₂.root, weightOf t₂.node[i.val] = 0) ∧
          t₂.result0 = t₁.result0

/-! ### The encoder (45_stream_encoder.md) -/

/-- R260 to R264: an ENC_COMPRESS of an input that is read from its first bit, all of it in range, leaves pass 1's counts,
tree and table and the projected size; it writes the archive, exactly that long, and sets WROTE when F = 1 or the
projected size is smaller than 8 bits a symbol, and else writes nothing. -/
def Obligations.CompressWritesTheArchive : Prop :=
  ∀ (s : State) (i : Instr) (force : Bool),
    (i = .encCompress ∧ force = false ∨ i = .encCompressF ∧ force = true) →
    s.src.rewindable = true → s.src.pos = 0 → (∀ v ∈ s.inputSymbols, v < 256) → s.inputSymbols.length < 2 ^ 32 →
    ∃ tree : CodeTree, (storeTree (s.counted s.inputSymbols s.src.bits.length)).tree = some tree ∧
      let archive := s.magicBits ++ tree.tokens ++ tree.encodeAll s.inputSymbols ++ (tree.codeOf 256).getD []
      let p := s.afterPass1 s.inputSymbols tree
      archive.length = tree.archiveBits s.inputSymbols ∧ archive.length < 2 ^ 41 ∧
      ((force = true ∨ archive.length < 8 * s.inputSymbols.length) →
        exec i s = .next (done { p with snk := s.snk ++ archive, status := { p.status with wrote := true } })) ∧
      (¬ (force = true ∨ archive.length < 8 * s.inputSymbols.length) → exec i s = .next (done p))

/-- R260, R263, D26: with values out of range in the input (SYM_IN_W above 8), ENC_COMPRESS with F = 0 that the size
policy skips raises no error: pass 1's results stay, and nothing is written or rewound. -/
def Obligations.SkippedCompressRaisesNothing : Prop :=
  ∀ s : State, s.src.rewindable = true → s.src.pos = 0 → (inRange s.inputSymbols).length < 2 ^ 32 →
    (outOfRange s.inputSymbols).length < 2 ^ 32 →
    ∃ tree : CodeTree, (storeTree (s.counted s.inputSymbols s.src.bits.length)).tree = some tree ∧
      (8 * (inRange s.inputSymbols).length ≤ tree.archiveBits s.inputSymbols →
        exec .encCompress s = .next (done (s.afterPass1 s.inputSymbols tree)))

/-- R260, R331, R332, C2: when pass 2 runs it stops at the first value out of range with InvalidSymbol; SNK then holds
the header and the codes of the symbols before it, SRC stands just after it, pass 1's counts, tree and table stay, and
WROTE is as it was. -/
def Obligations.CompressStopsAtAnUncodableValue : Prop :=
  ∀ (s : State) (i : Instr) (force : Bool) (pre post : List Nat) (v : Nat),
    (i = .encCompress ∧ force = false ∨ i = .encCompressF ∧ force = true) →
    s.src.rewindable = true → s.src.pos = 0 → (inRange s.inputSymbols).length < 2 ^ 32 →
    (outOfRange s.inputSymbols).length < 2 ^ 32 →
    s.inputSymbols = pre ++ v :: post → (∀ x ∈ pre, x < 256) → 256 ≤ v →
    ∃ tree : CodeTree, (storeTree (s.counted s.inputSymbols s.src.bits.length)).tree = some tree ∧
      ((force = true ∨ tree.archiveBits s.inputSymbols < 8 * (inRange s.inputSymbols).length) →
        ∃ t, exec i s = .next t ∧ EndsInError .invalidSymbol (BitVec.ofNat 32 v)
          { s.afterPass1 s.inputSymbols tree with
            snk := s.snk ++ s.magicBits ++ tree.tokens ++ tree.encodeAll pre,
            src := { s.src with pos := s.build.symInW * (pre.length + 1) } } t)

/-- R260, R335: an SRC that cannot rewind is turned down before any read, whatever F is. -/
def Obligations.CompressNeedsARewindableSource : Prop :=
  ∀ (s : State) (i : Instr), i = .encCompress ∨ i = .encCompressF → s.src.rewindable = false →
    ∃ t, exec i s = .next t ∧ EndsInError .rewindUnsupported 0 s t

/-! ### The decoder (46_stream_decoder.md) -/

/-- R280, R281: DEC_DECOMPRESS of an archive, a header and then the codes of some symbols and one sentinel code, writes
those symbols, returns 8 bits for each, and stops at the first bit after the sentinel's code. A one-leaf tree reads no body
bit. -/
def Obligations.DecompressWritesTheSymbols : Prop :=
  ∀ (s : State) (tree : CodeTree) (body : List (BitVec 9 × Bits)) (last rest : Bits),
    tree.nodeCount ≤ 513 → (∀ p ∈ body, p ∈ tree.codes ∧ p.1.toNat < 256) → (256, last) ∈ tree.codes →
    body.length < 2 ^ 61 →
    s.unread = s.magicBits ++ tree.tokens ++ body.flatMap Prod.snd ++ last ++ rest →
    ∃ node, HoldsRebuilt tree node ∧
      exec .decDecompress s = .next (done
        { (s.afterHeader tree node).streamed (body.flatMap fun p => natToBits 8 p.1.toNat)
            ((body.flatMap Prod.snd).length + last.length) with
          result0 := BitVec.ofNat 32 (8 * body.length), result1 := BitVec.ofNat 32 (8 * body.length / 2 ^ 32) })

/-- R281: a root that is a leaf is settled before any body bit is read: the sentinel's ends the command at once with no
symbol written, any other raises TreeError. -/
def Obligations.RootLeafIsSettledBeforeTheBody : Prop :=
  ∀ (s : State) (sym : BitVec 9) (rest : Bits), s.unread = s.magicBits ++ (CodeTree.leaf sym).tokens ++ rest →
    ∃ node, HoldsRebuilt (.leaf sym) node ∧
      (sym = 256 →
        exec .decDecompress s = .next (done { s.afterHeader (.leaf 256) node with result0 := 0, result1 := 0 })) ∧
      (sym ≠ 256 → ∃ t, exec .decDecompress s = .next t ∧
        EndsInError .treeError (sym.setWidth 32) (s.afterHeader (.leaf sym) node) t)

/-- R282: a leaf symbol above 256 raises InvalidSymbol where the walk reaches it, after the symbols before it were
written. -/
def Obligations.LeafAboveSentinelIsInvalidSymbol : Prop :=
  ∀ (s : State) (tree : CodeTree) (body : List (BitVec 9 × Bits)) (bad : BitVec 9 × Bits) (rest : Bits),
    tree.nodeCount ≤ 513 → (∀ p ∈ body, p ∈ tree.codes ∧ p.1.toNat < 256) → bad ∈ tree.codes → 256 < bad.1.toNat →
    bad.2 ≠ [] → body.length < 2 ^ 61 →
    s.unread = s.magicBits ++ tree.tokens ++ body.flatMap Prod.snd ++ bad.2 ++ rest →
    ∃ t node, HoldsRebuilt tree node ∧ exec .decDecompress s = .next t ∧
      EndsInError .invalidSymbol (bad.1.setWidth 32)
        ((s.afterHeader tree node).streamed (body.flatMap fun p => natToBits 8 p.1.toNat)
          ((body.flatMap Prod.snd).length + bad.2.length)) t

/-- R285: an archive cut after its header and before the last bit of its sentinel code: the symbols whose codes are
complete are written, and then UnexpectedEndOfInput is raised. -/
def Obligations.TruncatedBodyIsUnexpectedEnd : Prop :=
  ∀ (s : State) (tree : CodeTree) (body : List (BitVec 9 × Bits)) (part : Bits) (next : BitVec 9 × Bits),
    tree.nodeCount ≤ 513 → (∀ p ∈ body, p ∈ tree.codes ∧ p.1.toNat < 256) → next ∈ tree.codes →
    part <+: next.2 → part ≠ next.2 → body.length < 2 ^ 61 →
    s.unread = s.magicBits ++ tree.tokens ++ body.flatMap Prod.snd ++ part →
    ∃ t node, HoldsRebuilt tree node ∧ exec .decDecompress s = .next t ∧
      EndsInError .unexpectedEndOfInput 0
        ((s.afterHeader tree node).streamed (body.flatMap fun p => natToBits 8 p.1.toNat)
          ((body.flatMap Prod.snd).length + part.length)) t

/-- R280: after 2^61 - 1 symbols the code of one more raises CountOverflow: that symbol is not written, and its code has
been read. -/
def Obligations.DecompressStopsAtCountOverflow : Prop :=
  ∀ (s : State) (tree : CodeTree) (body : List (BitVec 9 × Bits)) (next : BitVec 9 × Bits) (rest : Bits),
    tree.nodeCount ≤ 513 → (∀ p ∈ body, p ∈ tree.codes ∧ p.1.toNat < 256) → next ∈ tree.codes → next.1.toNat < 256 →
    next.2 ≠ [] → body.length = 2 ^ 61 - 1 →
    s.unread = s.magicBits ++ tree.tokens ++ body.flatMap Prod.snd ++ next.2 ++ rest →
    ∃ t node, HoldsRebuilt tree node ∧ exec .decDecompress s = .next t ∧
      EndsInError .countOverflow 0
        ((s.afterHeader tree node).streamed (body.flatMap fun p => natToBits 8 p.1.toNat)
          ((body.flatMap Prod.snd).length + next.2.length)) t

/-- R265: the round trip. The bits an ENC_COMPRESS.F without error writes for a byte sequence S, with any bits after them,
are what DEC_DECOMPRESS turns back into exactly S. -/
def Obligations.CompressDecompressRoundTrip : Prop :=
  ∀ (s₁ s₂ t₁ : State) (bytes : List (BitVec 8)) (archive trailing : Bits),
    s₁.build.symInW = 8 → s₁.src.bits = bytesToBits bytes → s₁.src.pos = 0 →
    exec .encCompressF s₁ = .next t₁ → t₁.status.err = false → t₁.snk = s₁.snk ++ archive →
    s₂.build.hdrMagic = s₁.build.hdrMagic → s₂.unread = archive ++ trailing →
    ∃ t₂, exec .decDecompress s₂ = .next t₂ ∧
      t₂.status = { (s₂.status.withValid true false) with busy := false, done := true } ∧
      t₂.snk = s₂.snk ++ bytesToBits bytes ∧ t₂.sizeResult = 8 * bytes.length ∧
      t₂.src.pos = s₂.src.pos + archive.length

/-! ### Rules over all commands -/

/-- R32, R53, R82, R109: no command changes ARG0, ARG1, CMD, the build, SRC's bits or what is scheduled, and SNK
only grows. -/
def Obligations.NoCommandTouchesOperandsOrSourceBits : Prop :=
  ∀ (i : Instr) (s t : State), exec i s = .next t →
    t.arg0 = s.arg0 ∧ t.arg1 = s.arg1 ∧ t.cmd = s.cmd ∧ t.build = s.build ∧ t.src.bits = s.src.bits ∧
    t.src.rewindable = s.src.rewindable ∧ t.src.start = s.src.start ∧ s.snk <+: t.snk ∧ t.agenda = s.agenda ∧ t.resetLine = s.resetLine ∧
    t.bus = s.bus

/-- R86: which commands use which port. -/
def Obligations.PortsAreUsedOnlyByTheirCommands : Prop :=
  ∀ (i : Instr) (s t : State), exec i s = .next t →
    (i ∉ [Instr.fcCount, .hcRead, .encCompress, .encCompressF, .decDecompress] → t.src = s.src) ∧
    (i ∉ [Instr.hcWrite, .encCompress, .encCompressF, .decDecompress] → t.snk = s.snk)

/-- R39, R43, R47, R52, R187: who writes the unit memories: the counts, the tree and the code table keep their contents
through every command that is not named. -/
def Obligations.MemoriesKeepTheirContents : Prop :=
  ∀ (i : Instr) (s t : State), exec i s = .next t →
    (i ∉ [Instr.fcClear, .fcCount, .fcAdd, .fcSet, .encCompress, .encCompressF] → t.freq = s.freq) ∧
    (i ∉ [Instr.fcClear, .fcCount, .encCompress, .encCompressF] → t.total = s.total ∧ t.skipped = s.skipped) ∧
    (i ∉ [Instr.tbBuild, .hcRead, .encCompress, .encCompressF, .decDecompress] →
      t.node = s.node ∧ t.root = s.root ∧ t.nleaves = s.nleaves ∧ t.nnodes = s.nnodes ∧
      t.status.treeValid = s.status.treeValid) ∧
    (i ∉ [Instr.ctMake, .encCompress, .encCompressF] → t.code = s.code)

/-- R332, C12: after any error, FREQ, TOTAL, SKIPPED, the streams and the flags are as the table of error sites says: only
the commands that count, compress or decompress leave anything of theirs changed, and WROTE is not set. -/
def Obligations.ErrorsLeaveWhatTheTableSays : Prop :=
  ∀ (i : Instr) (s t : State), s.status.busy = true → s.status.err = false → exec i s = .next t → t.status.err = true →
    t.status.busy = false ∧ t.status.done = true ∧ t.status.wrote = s.status.wrote ∧
    (i ∈ [Instr.fcGet, .fcAdd, .fcSet, .ctGet, .ctMake, .hcWrite] →
      t.freq = s.freq ∧ t.total = s.total ∧ t.skipped = s.skipped ∧ t.src = s.src ∧ t.snk = s.snk) ∧
    (i = .ctMake → t.status.tableValid = false) ∧
    (i = .hcRead → t.status.treeValid = false ∧ t.status.tableValid = false ∧ t.snk = s.snk) ∧
    (i = .decDecompress → t.status.tableValid = false ∧ (t.status.treeValid = false → t.snk = s.snk))

/-- R331, R363: at every point of a running command, SNK holds a prefix of what it holds when the command has completed;
so a reset leaves a prefix of its output. The count k of the actions performed is the model's own (log entry 6). -/
def Obligations.OutputGrowsToTheFinalOutput : Prop :=
  ∀ (i : Instr) (s t : State) (k : Nat), s.status.busy = true → exec i s = .next t → t.status.busy = false →
    s.snk <+: (afterActions (ruleOf i) k s).snk ∧ (afterActions (ruleOf i) k s).snk <+: t.snk

/-- R166: every accepted command completes, in a state that meets the tree's invariant. -/
def Obligations.EveryCommandCompletes : Prop :=
  ∀ (i : Instr) (s : State), s.treeInv →
    ∃ t, exec i s = .next t ∧ t.status.busy = false ∧ t.status.done = true ∧ t.phase = .idle ∧ t.work = Work.fresh

/-- R37, R46, R48: every step keeps the invariants of the status flags, the tree and the code table, and after it they
also hold of the machine as a host sees it, `live t`: while a command runs, the accepted machine after the actions the
command has performed. Which of a rule's writes are actions of their own is the model's account (log entries 6 and 9). -/
def Obligations.StepKeepsTheInvariants : Prop :=
  ∀ s t : State, s.statusInv ∧ s.treeInv ∧ s.tableInv → step s = .next t →
    (t.statusInv ∧ t.treeInv ∧ t.tableInv) ∧
    ((live t).status.consistent ∧ ((live t).status.busy = true ↔ t.phase ≠ .idle) ∧ (live t).treeInv ∧ (live t).tableInv)

/-- R53, R45: every step keeps SRC's cursor within its bits and the tree's counts within their registers. -/
def Obligations.StepKeepsTheBounds : Prop :=
  ∀ s t : State, s.boundsInv → step s = .next t → t.boundsInv

/-- R360, R361: the registers of the machine right after reset; the unit memories hold any values; and it meets the
invariants. -/
def Obligations.ResetClearsTheRegisters : Prop :=
  State.reset.cmd = 0 ∧ statusWord State.reset.status = 0 ∧ State.reset.arg0 = 0 ∧ State.reset.arg1 = 0 ∧
  State.reset.result0 = 0 ∧ State.reset.result1 = 0 ∧ State.reset.total = 0 ∧ State.reset.skipped = 0 ∧
  State.reset.errinfo = 0 ∧ State.reset.phase = .idle ∧ State.reset.work = Work.fresh ∧
  State.reset.statusInv ∧ State.reset.treeInv ∧ State.reset.tableInv ∧ State.reset.boundsInv
end

