-- ==== Sys2Proof/Laws/State.lean ====
section
/-! SUPPORT. What each named update of the state leaves in each field, so that no proof unfolds a record update. -/

namespace Sys2Proof.Machine

/-! ### accept -/

@[simp] theorem accept_build (v : Word) (s : State) : (accept v s).build = s.build := rfl
@[simp] theorem accept_cmd (v : Word) (s : State) : (accept v s).cmd = v := rfl
@[simp] theorem accept_status (v : Word) (s : State) : (accept v s).status = acceptFlags s.status := rfl
@[simp] theorem accept_arg0 (v : Word) (s : State) : (accept v s).arg0 = s.arg0 := rfl
@[simp] theorem accept_arg1 (v : Word) (s : State) : (accept v s).arg1 = s.arg1 := rfl
@[simp] theorem accept_result0 (v : Word) (s : State) : (accept v s).result0 = s.result0 := rfl
@[simp] theorem accept_result1 (v : Word) (s : State) : (accept v s).result1 = s.result1 := rfl
@[simp] theorem accept_total (v : Word) (s : State) : (accept v s).total = s.total := rfl
@[simp] theorem accept_skipped (v : Word) (s : State) : (accept v s).skipped = s.skipped := rfl
@[simp] theorem accept_errinfo (v : Word) (s : State) : (accept v s).errinfo = 0 := rfl
@[simp] theorem accept_freq (v : Word) (s : State) : (accept v s).freq = s.freq := rfl
@[simp] theorem accept_node (v : Word) (s : State) : (accept v s).node = s.node := rfl
@[simp] theorem accept_root (v : Word) (s : State) : (accept v s).root = s.root := rfl
@[simp] theorem accept_nleaves (v : Word) (s : State) : (accept v s).nleaves = s.nleaves := rfl
@[simp] theorem accept_nnodes (v : Word) (s : State) : (accept v s).nnodes = s.nnodes := rfl
@[simp] theorem accept_code (v : Word) (s : State) : (accept v s).code = s.code := rfl
@[simp] theorem accept_phase (v : Word) (s : State) : (accept v s).phase = .run 0 := rfl
@[simp] theorem accept_work (v : Word) (s : State) : (accept v s).work = Work.fresh := rfl
@[simp] theorem accept_src (v : Word) (s : State) : (accept v s).src = s.src := rfl
@[simp] theorem accept_snk (v : Word) (s : State) : (accept v s).snk = s.snk := rfl
@[simp] theorem accept_resetLine (v : Word) (s : State) : (accept v s).resetLine = s.resetLine := rfl
@[simp] theorem accept_agenda (v : Word) (s : State) : (accept v s).agenda = s.agenda := rfl
@[simp] theorem accept_bus (v : Word) (s : State) : (accept v s).bus = s.bus := rfl
@[simp] theorem accept_draws (v : Word) (s : State) : (accept v s).draws = s.draws := rfl

/-! ### done -/

@[simp] theorem done_build (s : State) : (done s).build = s.build := rfl
@[simp] theorem done_cmd (s : State) : (done s).cmd = s.cmd := rfl
@[simp] theorem done_status (s : State) : (done s).status = doneFlags s.status := rfl
@[simp] theorem done_arg0 (s : State) : (done s).arg0 = s.arg0 := rfl
@[simp] theorem done_arg1 (s : State) : (done s).arg1 = s.arg1 := rfl
@[simp] theorem done_result0 (s : State) : (done s).result0 = s.result0 := rfl
@[simp] theorem done_result1 (s : State) : (done s).result1 = s.result1 := rfl
@[simp] theorem done_total (s : State) : (done s).total = s.total := rfl
@[simp] theorem done_skipped (s : State) : (done s).skipped = s.skipped := rfl
@[simp] theorem done_errinfo (s : State) : (done s).errinfo = s.errinfo := rfl
@[simp] theorem done_freq (s : State) : (done s).freq = s.freq := rfl
@[simp] theorem done_node (s : State) : (done s).node = s.node := rfl
@[simp] theorem done_root (s : State) : (done s).root = s.root := rfl
@[simp] theorem done_nleaves (s : State) : (done s).nleaves = s.nleaves := rfl
@[simp] theorem done_nnodes (s : State) : (done s).nnodes = s.nnodes := rfl
@[simp] theorem done_code (s : State) : (done s).code = s.code := rfl
@[simp] theorem done_phase (s : State) : (done s).phase = .idle := rfl
@[simp] theorem done_work (s : State) : (done s).work = Work.fresh := rfl
@[simp] theorem done_src (s : State) : (done s).src = s.src := rfl
@[simp] theorem done_snk (s : State) : (done s).snk = s.snk := rfl
@[simp] theorem done_resetLine (s : State) : (done s).resetLine = s.resetLine := rfl
@[simp] theorem done_agenda (s : State) : (done s).agenda = s.agenda := rfl
@[simp] theorem done_bus (s : State) : (done s).bus = s.bus := rfl
@[simp] theorem done_draws (s : State) : (done s).draws = s.draws := rfl

/-! ### raiseEntry -/

@[simp] theorem raiseEntry_build (e : ErrKind) (info : Word) (s : State) : (raiseEntry e info s).build = s.build := rfl
@[simp] theorem raiseEntry_cmd (e : ErrKind) (info : Word) (s : State) : (raiseEntry e info s).cmd = s.cmd := rfl
@[simp] theorem raiseEntry_status (e : ErrKind) (info : Word) (s : State) : (raiseEntry e info s).status =
    raiseFlags e s.status := rfl
@[simp] theorem raiseEntry_arg0 (e : ErrKind) (info : Word) (s : State) : (raiseEntry e info s).arg0 = s.arg0 := rfl
@[simp] theorem raiseEntry_arg1 (e : ErrKind) (info : Word) (s : State) : (raiseEntry e info s).arg1 = s.arg1 := rfl
@[simp] theorem raiseEntry_result0 (e : ErrKind) (info : Word) (s : State) : (raiseEntry e info s).result0 =
    s.result0 := rfl
@[simp] theorem raiseEntry_result1 (e : ErrKind) (info : Word) (s : State) : (raiseEntry e info s).result1 =
    s.result1 := rfl
@[simp] theorem raiseEntry_total (e : ErrKind) (info : Word) (s : State) : (raiseEntry e info s).total = s.total := rfl
@[simp] theorem raiseEntry_skipped (e : ErrKind) (info : Word) (s : State) : (raiseEntry e info s).skipped =
    s.skipped := rfl
@[simp] theorem raiseEntry_errinfo (e : ErrKind) (info : Word) (s : State) : (raiseEntry e info s).errinfo = info := rfl
@[simp] theorem raiseEntry_freq (e : ErrKind) (info : Word) (s : State) : (raiseEntry e info s).freq = s.freq := rfl
@[simp] theorem raiseEntry_node (e : ErrKind) (info : Word) (s : State) : (raiseEntry e info s).node = s.node := rfl
@[simp] theorem raiseEntry_root (e : ErrKind) (info : Word) (s : State) : (raiseEntry e info s).root = s.root := rfl
@[simp] theorem raiseEntry_nleaves (e : ErrKind) (info : Word) (s : State) : (raiseEntry e info s).nleaves =
    s.nleaves := rfl
@[simp] theorem raiseEntry_nnodes (e : ErrKind) (info : Word) (s : State) : (raiseEntry e info s).nnodes =
    s.nnodes := rfl
@[simp] theorem raiseEntry_code (e : ErrKind) (info : Word) (s : State) : (raiseEntry e info s).code = s.code := rfl
@[simp] theorem raiseEntry_phase (e : ErrKind) (info : Word) (s : State) : (raiseEntry e info s).phase = .idle := rfl
@[simp] theorem raiseEntry_work (e : ErrKind) (info : Word) (s : State) : (raiseEntry e info s).work = Work.fresh := rfl
@[simp] theorem raiseEntry_src (e : ErrKind) (info : Word) (s : State) : (raiseEntry e info s).src = s.src := rfl
@[simp] theorem raiseEntry_snk (e : ErrKind) (info : Word) (s : State) : (raiseEntry e info s).snk = s.snk := rfl
@[simp] theorem raiseEntry_resetLine (e : ErrKind) (info : Word) (s : State) : (raiseEntry e info s).resetLine =
    s.resetLine := rfl
@[simp] theorem raiseEntry_agenda (e : ErrKind) (info : Word) (s : State) : (raiseEntry e info s).agenda =
    s.agenda := rfl
@[simp] theorem raiseEntry_bus (e : ErrKind) (info : Word) (s : State) : (raiseEntry e info s).bus = s.bus := rfl
@[simp] theorem raiseEntry_draws (e : ErrKind) (info : Word) (s : State) : (raiseEntry e info s).draws = s.draws := rfl

/-! ### drawResults -/

@[simp] theorem drawResults_build (s : State) : (drawResults s).build = s.build := rfl
@[simp] theorem drawResults_cmd (s : State) : (drawResults s).cmd = s.cmd := rfl
@[simp] theorem drawResults_status (s : State) : (drawResults s).status = s.status := rfl
@[simp] theorem drawResults_arg0 (s : State) : (drawResults s).arg0 = s.arg0 := rfl
@[simp] theorem drawResults_arg1 (s : State) : (drawResults s).arg1 = s.arg1 := rfl
@[simp] theorem drawResults_result0 (s : State) : (drawResults s).result0 = Config.freeWord s.draws := rfl
@[simp] theorem drawResults_result1 (s : State) : (drawResults s).result1 = Config.freeWord (s.draws + 1) := rfl
@[simp] theorem drawResults_total (s : State) : (drawResults s).total = s.total := rfl
@[simp] theorem drawResults_skipped (s : State) : (drawResults s).skipped = s.skipped := rfl
@[simp] theorem drawResults_errinfo (s : State) : (drawResults s).errinfo = s.errinfo := rfl
@[simp] theorem drawResults_freq (s : State) : (drawResults s).freq = s.freq := rfl
@[simp] theorem drawResults_node (s : State) : (drawResults s).node = s.node := rfl
@[simp] theorem drawResults_root (s : State) : (drawResults s).root = s.root := rfl
@[simp] theorem drawResults_nleaves (s : State) : (drawResults s).nleaves = s.nleaves := rfl
@[simp] theorem drawResults_nnodes (s : State) : (drawResults s).nnodes = s.nnodes := rfl
@[simp] theorem drawResults_code (s : State) : (drawResults s).code = s.code := rfl
@[simp] theorem drawResults_phase (s : State) : (drawResults s).phase = s.phase := rfl
@[simp] theorem drawResults_work (s : State) : (drawResults s).work = s.work := rfl
@[simp] theorem drawResults_src (s : State) : (drawResults s).src = s.src := rfl
@[simp] theorem drawResults_snk (s : State) : (drawResults s).snk = s.snk := rfl
@[simp] theorem drawResults_resetLine (s : State) : (drawResults s).resetLine = s.resetLine := rfl
@[simp] theorem drawResults_agenda (s : State) : (drawResults s).agenda = s.agenda := rfl
@[simp] theorem drawResults_bus (s : State) : (drawResults s).bus = s.bus := rfl
@[simp] theorem drawResults_draws (s : State) : (drawResults s).draws = s.draws + 2 := rfl

/-! ### setSrcPos -/

@[simp] theorem setSrcPos_build (p : Nat) (s : State) : (setSrcPos p s).build = s.build := rfl
@[simp] theorem setSrcPos_cmd (p : Nat) (s : State) : (setSrcPos p s).cmd = s.cmd := rfl
@[simp] theorem setSrcPos_status (p : Nat) (s : State) : (setSrcPos p s).status = s.status := rfl
@[simp] theorem setSrcPos_arg0 (p : Nat) (s : State) : (setSrcPos p s).arg0 = s.arg0 := rfl
@[simp] theorem setSrcPos_arg1 (p : Nat) (s : State) : (setSrcPos p s).arg1 = s.arg1 := rfl
@[simp] theorem setSrcPos_result0 (p : Nat) (s : State) : (setSrcPos p s).result0 = s.result0 := rfl
@[simp] theorem setSrcPos_result1 (p : Nat) (s : State) : (setSrcPos p s).result1 = s.result1 := rfl
@[simp] theorem setSrcPos_total (p : Nat) (s : State) : (setSrcPos p s).total = s.total := rfl
@[simp] theorem setSrcPos_skipped (p : Nat) (s : State) : (setSrcPos p s).skipped = s.skipped := rfl
@[simp] theorem setSrcPos_errinfo (p : Nat) (s : State) : (setSrcPos p s).errinfo = s.errinfo := rfl
@[simp] theorem setSrcPos_freq (p : Nat) (s : State) : (setSrcPos p s).freq = s.freq := rfl
@[simp] theorem setSrcPos_node (p : Nat) (s : State) : (setSrcPos p s).node = s.node := rfl
@[simp] theorem setSrcPos_root (p : Nat) (s : State) : (setSrcPos p s).root = s.root := rfl
@[simp] theorem setSrcPos_nleaves (p : Nat) (s : State) : (setSrcPos p s).nleaves = s.nleaves := rfl
@[simp] theorem setSrcPos_nnodes (p : Nat) (s : State) : (setSrcPos p s).nnodes = s.nnodes := rfl
@[simp] theorem setSrcPos_code (p : Nat) (s : State) : (setSrcPos p s).code = s.code := rfl
@[simp] theorem setSrcPos_phase (p : Nat) (s : State) : (setSrcPos p s).phase = s.phase := rfl
@[simp] theorem setSrcPos_work (p : Nat) (s : State) : (setSrcPos p s).work = s.work := rfl
@[simp] theorem setSrcPos_src (p : Nat) (s : State) : (setSrcPos p s).src = { s.src with pos := p } := rfl
@[simp] theorem setSrcPos_snk (p : Nat) (s : State) : (setSrcPos p s).snk = s.snk := rfl
@[simp] theorem setSrcPos_resetLine (p : Nat) (s : State) : (setSrcPos p s).resetLine = s.resetLine := rfl
@[simp] theorem setSrcPos_agenda (p : Nat) (s : State) : (setSrcPos p s).agenda = s.agenda := rfl
@[simp] theorem setSrcPos_bus (p : Nat) (s : State) : (setSrcPos p s).bus = s.bus := rfl
@[simp] theorem setSrcPos_draws (p : Nat) (s : State) : (setSrcPos p s).draws = s.draws := rfl

/-! ### appendSnk -/

@[simp] theorem appendSnk_build (b : Bits) (s : State) : (appendSnk b s).build = s.build := rfl
@[simp] theorem appendSnk_cmd (b : Bits) (s : State) : (appendSnk b s).cmd = s.cmd := rfl
@[simp] theorem appendSnk_status (b : Bits) (s : State) : (appendSnk b s).status = s.status := rfl
@[simp] theorem appendSnk_arg0 (b : Bits) (s : State) : (appendSnk b s).arg0 = s.arg0 := rfl
@[simp] theorem appendSnk_arg1 (b : Bits) (s : State) : (appendSnk b s).arg1 = s.arg1 := rfl
@[simp] theorem appendSnk_result0 (b : Bits) (s : State) : (appendSnk b s).result0 = s.result0 := rfl
@[simp] theorem appendSnk_result1 (b : Bits) (s : State) : (appendSnk b s).result1 = s.result1 := rfl
@[simp] theorem appendSnk_total (b : Bits) (s : State) : (appendSnk b s).total = s.total := rfl
@[simp] theorem appendSnk_skipped (b : Bits) (s : State) : (appendSnk b s).skipped = s.skipped := rfl
@[simp] theorem appendSnk_errinfo (b : Bits) (s : State) : (appendSnk b s).errinfo = s.errinfo := rfl
@[simp] theorem appendSnk_freq (b : Bits) (s : State) : (appendSnk b s).freq = s.freq := rfl
@[simp] theorem appendSnk_node (b : Bits) (s : State) : (appendSnk b s).node = s.node := rfl
@[simp] theorem appendSnk_root (b : Bits) (s : State) : (appendSnk b s).root = s.root := rfl
@[simp] theorem appendSnk_nleaves (b : Bits) (s : State) : (appendSnk b s).nleaves = s.nleaves := rfl
@[simp] theorem appendSnk_nnodes (b : Bits) (s : State) : (appendSnk b s).nnodes = s.nnodes := rfl
@[simp] theorem appendSnk_code (b : Bits) (s : State) : (appendSnk b s).code = s.code := rfl
@[simp] theorem appendSnk_phase (b : Bits) (s : State) : (appendSnk b s).phase = s.phase := rfl
@[simp] theorem appendSnk_work (b : Bits) (s : State) : (appendSnk b s).work = s.work := rfl
@[simp] theorem appendSnk_src (b : Bits) (s : State) : (appendSnk b s).src = s.src := rfl
@[simp] theorem appendSnk_snk (b : Bits) (s : State) : (appendSnk b s).snk = s.snk ++ b := rfl
@[simp] theorem appendSnk_resetLine (b : Bits) (s : State) : (appendSnk b s).resetLine = s.resetLine := rfl
@[simp] theorem appendSnk_agenda (b : Bits) (s : State) : (appendSnk b s).agenda = s.agenda := rfl
@[simp] theorem appendSnk_bus (b : Bits) (s : State) : (appendSnk b s).bus = s.bus := rfl
@[simp] theorem appendSnk_draws (b : Bits) (s : State) : (appendSnk b s).draws = s.draws := rfl

/-! ### setResults -/

@[simp] theorem setResults_build (r0 r1 : Word) (s : State) : (setResults r0 r1 s).build = s.build := rfl
@[simp] theorem setResults_cmd (r0 r1 : Word) (s : State) : (setResults r0 r1 s).cmd = s.cmd := rfl
@[simp] theorem setResults_status (r0 r1 : Word) (s : State) : (setResults r0 r1 s).status = s.status := rfl
@[simp] theorem setResults_arg0 (r0 r1 : Word) (s : State) : (setResults r0 r1 s).arg0 = s.arg0 := rfl
@[simp] theorem setResults_arg1 (r0 r1 : Word) (s : State) : (setResults r0 r1 s).arg1 = s.arg1 := rfl
@[simp] theorem setResults_result0 (r0 r1 : Word) (s : State) : (setResults r0 r1 s).result0 = r0 := rfl
@[simp] theorem setResults_result1 (r0 r1 : Word) (s : State) : (setResults r0 r1 s).result1 = r1 := rfl
@[simp] theorem setResults_total (r0 r1 : Word) (s : State) : (setResults r0 r1 s).total = s.total := rfl
@[simp] theorem setResults_skipped (r0 r1 : Word) (s : State) : (setResults r0 r1 s).skipped = s.skipped := rfl
@[simp] theorem setResults_errinfo (r0 r1 : Word) (s : State) : (setResults r0 r1 s).errinfo = s.errinfo := rfl
@[simp] theorem setResults_freq (r0 r1 : Word) (s : State) : (setResults r0 r1 s).freq = s.freq := rfl
@[simp] theorem setResults_node (r0 r1 : Word) (s : State) : (setResults r0 r1 s).node = s.node := rfl
@[simp] theorem setResults_root (r0 r1 : Word) (s : State) : (setResults r0 r1 s).root = s.root := rfl
@[simp] theorem setResults_nleaves (r0 r1 : Word) (s : State) : (setResults r0 r1 s).nleaves = s.nleaves := rfl
@[simp] theorem setResults_nnodes (r0 r1 : Word) (s : State) : (setResults r0 r1 s).nnodes = s.nnodes := rfl
@[simp] theorem setResults_code (r0 r1 : Word) (s : State) : (setResults r0 r1 s).code = s.code := rfl
@[simp] theorem setResults_phase (r0 r1 : Word) (s : State) : (setResults r0 r1 s).phase = s.phase := rfl
@[simp] theorem setResults_work (r0 r1 : Word) (s : State) : (setResults r0 r1 s).work = s.work := rfl
@[simp] theorem setResults_src (r0 r1 : Word) (s : State) : (setResults r0 r1 s).src = s.src := rfl
@[simp] theorem setResults_snk (r0 r1 : Word) (s : State) : (setResults r0 r1 s).snk = s.snk := rfl
@[simp] theorem setResults_resetLine (r0 r1 : Word) (s : State) : (setResults r0 r1 s).resetLine = s.resetLine := rfl
@[simp] theorem setResults_agenda (r0 r1 : Word) (s : State) : (setResults r0 r1 s).agenda = s.agenda := rfl
@[simp] theorem setResults_bus (r0 r1 : Word) (s : State) : (setResults r0 r1 s).bus = s.bus := rfl
@[simp] theorem setResults_draws (r0 r1 : Word) (s : State) : (setResults r0 r1 s).draws = s.draws := rfl

/-! ### clearCounts -/

@[simp] theorem clearCounts_build (s : State) : (clearCounts s).build = s.build := rfl
@[simp] theorem clearCounts_cmd (s : State) : (clearCounts s).cmd = s.cmd := rfl
@[simp] theorem clearCounts_status (s : State) : (clearCounts s).status = s.status := rfl
@[simp] theorem clearCounts_arg0 (s : State) : (clearCounts s).arg0 = s.arg0 := rfl
@[simp] theorem clearCounts_arg1 (s : State) : (clearCounts s).arg1 = s.arg1 := rfl
@[simp] theorem clearCounts_result0 (s : State) : (clearCounts s).result0 = s.result0 := rfl
@[simp] theorem clearCounts_result1 (s : State) : (clearCounts s).result1 = s.result1 := rfl
@[simp] theorem clearCounts_total (s : State) : (clearCounts s).total = 0 := rfl
@[simp] theorem clearCounts_skipped (s : State) : (clearCounts s).skipped = 0 := rfl
@[simp] theorem clearCounts_errinfo (s : State) : (clearCounts s).errinfo = s.errinfo := rfl
@[simp] theorem clearCounts_freq (s : State) : (clearCounts s).freq = Vector.replicate 256 0 := rfl
@[simp] theorem clearCounts_node (s : State) : (clearCounts s).node = s.node := rfl
@[simp] theorem clearCounts_root (s : State) : (clearCounts s).root = s.root := rfl
@[simp] theorem clearCounts_nleaves (s : State) : (clearCounts s).nleaves = s.nleaves := rfl
@[simp] theorem clearCounts_nnodes (s : State) : (clearCounts s).nnodes = s.nnodes := rfl
@[simp] theorem clearCounts_code (s : State) : (clearCounts s).code = s.code := rfl
@[simp] theorem clearCounts_phase (s : State) : (clearCounts s).phase = s.phase := rfl
@[simp] theorem clearCounts_work (s : State) : (clearCounts s).work = s.work := rfl
@[simp] theorem clearCounts_src (s : State) : (clearCounts s).src = s.src := rfl
@[simp] theorem clearCounts_snk (s : State) : (clearCounts s).snk = s.snk := rfl
@[simp] theorem clearCounts_resetLine (s : State) : (clearCounts s).resetLine = s.resetLine := rfl
@[simp] theorem clearCounts_agenda (s : State) : (clearCounts s).agenda = s.agenda := rfl
@[simp] theorem clearCounts_bus (s : State) : (clearCounts s).bus = s.bus := rfl
@[simp] theorem clearCounts_draws (s : State) : (clearCounts s).draws = s.draws := rfl

/-! ### setFreq -/

@[simp] theorem setFreq_build (i : Fin 256) (v : Word) (s : State) : (setFreq i v s).build = s.build := rfl
@[simp] theorem setFreq_cmd (i : Fin 256) (v : Word) (s : State) : (setFreq i v s).cmd = s.cmd := rfl
@[simp] theorem setFreq_status (i : Fin 256) (v : Word) (s : State) : (setFreq i v s).status = s.status := rfl
@[simp] theorem setFreq_arg0 (i : Fin 256) (v : Word) (s : State) : (setFreq i v s).arg0 = s.arg0 := rfl
@[simp] theorem setFreq_arg1 (i : Fin 256) (v : Word) (s : State) : (setFreq i v s).arg1 = s.arg1 := rfl
@[simp] theorem setFreq_result0 (i : Fin 256) (v : Word) (s : State) : (setFreq i v s).result0 = s.result0 := rfl
@[simp] theorem setFreq_result1 (i : Fin 256) (v : Word) (s : State) : (setFreq i v s).result1 = s.result1 := rfl
@[simp] theorem setFreq_total (i : Fin 256) (v : Word) (s : State) : (setFreq i v s).total = s.total := rfl
@[simp] theorem setFreq_skipped (i : Fin 256) (v : Word) (s : State) : (setFreq i v s).skipped = s.skipped := rfl
@[simp] theorem setFreq_errinfo (i : Fin 256) (v : Word) (s : State) : (setFreq i v s).errinfo = s.errinfo := rfl
@[simp] theorem setFreq_freq (i : Fin 256) (v : Word) (s : State) : (setFreq i v s).freq = s.freq.set i.val v := rfl
@[simp] theorem setFreq_node (i : Fin 256) (v : Word) (s : State) : (setFreq i v s).node = s.node := rfl
@[simp] theorem setFreq_root (i : Fin 256) (v : Word) (s : State) : (setFreq i v s).root = s.root := rfl
@[simp] theorem setFreq_nleaves (i : Fin 256) (v : Word) (s : State) : (setFreq i v s).nleaves = s.nleaves := rfl
@[simp] theorem setFreq_nnodes (i : Fin 256) (v : Word) (s : State) : (setFreq i v s).nnodes = s.nnodes := rfl
@[simp] theorem setFreq_code (i : Fin 256) (v : Word) (s : State) : (setFreq i v s).code = s.code := rfl
@[simp] theorem setFreq_phase (i : Fin 256) (v : Word) (s : State) : (setFreq i v s).phase = s.phase := rfl
@[simp] theorem setFreq_work (i : Fin 256) (v : Word) (s : State) : (setFreq i v s).work = s.work := rfl
@[simp] theorem setFreq_src (i : Fin 256) (v : Word) (s : State) : (setFreq i v s).src = s.src := rfl
@[simp] theorem setFreq_snk (i : Fin 256) (v : Word) (s : State) : (setFreq i v s).snk = s.snk := rfl
@[simp] theorem setFreq_resetLine (i : Fin 256) (v : Word) (s : State) : (setFreq i v s).resetLine = s.resetLine := rfl
@[simp] theorem setFreq_agenda (i : Fin 256) (v : Word) (s : State) : (setFreq i v s).agenda = s.agenda := rfl
@[simp] theorem setFreq_bus (i : Fin 256) (v : Word) (s : State) : (setFreq i v s).bus = s.bus := rfl
@[simp] theorem setFreq_draws (i : Fin 256) (v : Word) (s : State) : (setFreq i v s).draws = s.draws := rfl

/-! ### setNode -/

@[simp] theorem setNode_build (i : Slot) (x : Node) (s : State) : (setNode i x s).build = s.build := rfl
@[simp] theorem setNode_cmd (i : Slot) (x : Node) (s : State) : (setNode i x s).cmd = s.cmd := rfl
@[simp] theorem setNode_status (i : Slot) (x : Node) (s : State) : (setNode i x s).status = s.status := rfl
@[simp] theorem setNode_arg0 (i : Slot) (x : Node) (s : State) : (setNode i x s).arg0 = s.arg0 := rfl
@[simp] theorem setNode_arg1 (i : Slot) (x : Node) (s : State) : (setNode i x s).arg1 = s.arg1 := rfl
@[simp] theorem setNode_result0 (i : Slot) (x : Node) (s : State) : (setNode i x s).result0 = s.result0 := rfl
@[simp] theorem setNode_result1 (i : Slot) (x : Node) (s : State) : (setNode i x s).result1 = s.result1 := rfl
@[simp] theorem setNode_total (i : Slot) (x : Node) (s : State) : (setNode i x s).total = s.total := rfl
@[simp] theorem setNode_skipped (i : Slot) (x : Node) (s : State) : (setNode i x s).skipped = s.skipped := rfl
@[simp] theorem setNode_errinfo (i : Slot) (x : Node) (s : State) : (setNode i x s).errinfo = s.errinfo := rfl
@[simp] theorem setNode_freq (i : Slot) (x : Node) (s : State) : (setNode i x s).freq = s.freq := rfl
@[simp] theorem setNode_node (i : Slot) (x : Node) (s : State) : (setNode i x s).node = s.node.set i.val x := rfl
@[simp] theorem setNode_root (i : Slot) (x : Node) (s : State) : (setNode i x s).root = s.root := rfl
@[simp] theorem setNode_nleaves (i : Slot) (x : Node) (s : State) : (setNode i x s).nleaves = s.nleaves := rfl
@[simp] theorem setNode_nnodes (i : Slot) (x : Node) (s : State) : (setNode i x s).nnodes = s.nnodes := rfl
@[simp] theorem setNode_code (i : Slot) (x : Node) (s : State) : (setNode i x s).code = s.code := rfl
@[simp] theorem setNode_phase (i : Slot) (x : Node) (s : State) : (setNode i x s).phase = s.phase := rfl
@[simp] theorem setNode_work (i : Slot) (x : Node) (s : State) : (setNode i x s).work = s.work := rfl
@[simp] theorem setNode_src (i : Slot) (x : Node) (s : State) : (setNode i x s).src = s.src := rfl
@[simp] theorem setNode_snk (i : Slot) (x : Node) (s : State) : (setNode i x s).snk = s.snk := rfl
@[simp] theorem setNode_resetLine (i : Slot) (x : Node) (s : State) : (setNode i x s).resetLine = s.resetLine := rfl
@[simp] theorem setNode_agenda (i : Slot) (x : Node) (s : State) : (setNode i x s).agenda = s.agenda := rfl
@[simp] theorem setNode_bus (i : Slot) (x : Node) (s : State) : (setNode i x s).bus = s.bus := rfl
@[simp] theorem setNode_draws (i : Slot) (x : Node) (s : State) : (setNode i x s).draws = s.draws := rfl

/-! ### setCode -/

@[simp] theorem setCode_build (i : Fin 257) (e : CodeEntry) (s : State) : (setCode i e s).build = s.build := rfl
@[simp] theorem setCode_cmd (i : Fin 257) (e : CodeEntry) (s : State) : (setCode i e s).cmd = s.cmd := rfl
@[simp] theorem setCode_status (i : Fin 257) (e : CodeEntry) (s : State) : (setCode i e s).status = s.status := rfl
@[simp] theorem setCode_arg0 (i : Fin 257) (e : CodeEntry) (s : State) : (setCode i e s).arg0 = s.arg0 := rfl
@[simp] theorem setCode_arg1 (i : Fin 257) (e : CodeEntry) (s : State) : (setCode i e s).arg1 = s.arg1 := rfl
@[simp] theorem setCode_result0 (i : Fin 257) (e : CodeEntry) (s : State) : (setCode i e s).result0 = s.result0 := rfl
@[simp] theorem setCode_result1 (i : Fin 257) (e : CodeEntry) (s : State) : (setCode i e s).result1 = s.result1 := rfl
@[simp] theorem setCode_total (i : Fin 257) (e : CodeEntry) (s : State) : (setCode i e s).total = s.total := rfl
@[simp] theorem setCode_skipped (i : Fin 257) (e : CodeEntry) (s : State) : (setCode i e s).skipped = s.skipped := rfl
@[simp] theorem setCode_errinfo (i : Fin 257) (e : CodeEntry) (s : State) : (setCode i e s).errinfo = s.errinfo := rfl
@[simp] theorem setCode_freq (i : Fin 257) (e : CodeEntry) (s : State) : (setCode i e s).freq = s.freq := rfl
@[simp] theorem setCode_node (i : Fin 257) (e : CodeEntry) (s : State) : (setCode i e s).node = s.node := rfl
@[simp] theorem setCode_root (i : Fin 257) (e : CodeEntry) (s : State) : (setCode i e s).root = s.root := rfl
@[simp] theorem setCode_nleaves (i : Fin 257) (e : CodeEntry) (s : State) : (setCode i e s).nleaves = s.nleaves := rfl
@[simp] theorem setCode_nnodes (i : Fin 257) (e : CodeEntry) (s : State) : (setCode i e s).nnodes = s.nnodes := rfl
@[simp] theorem setCode_code (i : Fin 257) (e : CodeEntry) (s : State) : (setCode i e s).code =
    s.code.set i.val e := rfl
@[simp] theorem setCode_phase (i : Fin 257) (e : CodeEntry) (s : State) : (setCode i e s).phase = s.phase := rfl
@[simp] theorem setCode_work (i : Fin 257) (e : CodeEntry) (s : State) : (setCode i e s).work = s.work := rfl
@[simp] theorem setCode_src (i : Fin 257) (e : CodeEntry) (s : State) : (setCode i e s).src = s.src := rfl
@[simp] theorem setCode_snk (i : Fin 257) (e : CodeEntry) (s : State) : (setCode i e s).snk = s.snk := rfl
@[simp] theorem setCode_resetLine (i : Fin 257) (e : CodeEntry) (s : State) : (setCode i e s).resetLine =
    s.resetLine := rfl
@[simp] theorem setCode_agenda (i : Fin 257) (e : CodeEntry) (s : State) : (setCode i e s).agenda = s.agenda := rfl
@[simp] theorem setCode_bus (i : Fin 257) (e : CodeEntry) (s : State) : (setCode i e s).bus = s.bus := rfl
@[simp] theorem setCode_draws (i : Fin 257) (e : CodeEntry) (s : State) : (setCode i e s).draws = s.draws := rfl

/-! ### scrambleTree -/

@[simp] theorem scrambleTree_build (s : State) : (scrambleTree s).build = s.build := by unfold scrambleTree; rfl
@[simp] theorem scrambleTree_cmd (s : State) : (scrambleTree s).cmd = s.cmd := by unfold scrambleTree; rfl
@[simp] theorem scrambleTree_status (s : State) : (scrambleTree s).status = s.status := by unfold scrambleTree; rfl
@[simp] theorem scrambleTree_arg0 (s : State) : (scrambleTree s).arg0 = s.arg0 := by unfold scrambleTree; rfl
@[simp] theorem scrambleTree_arg1 (s : State) : (scrambleTree s).arg1 = s.arg1 := by unfold scrambleTree; rfl
@[simp] theorem scrambleTree_result0 (s : State) : (scrambleTree s).result0 = s.result0 := by unfold scrambleTree; rfl
@[simp] theorem scrambleTree_result1 (s : State) : (scrambleTree s).result1 = s.result1 := by unfold scrambleTree; rfl
@[simp] theorem scrambleTree_total (s : State) : (scrambleTree s).total = s.total := by unfold scrambleTree; rfl
@[simp] theorem scrambleTree_skipped (s : State) : (scrambleTree s).skipped = s.skipped := by unfold scrambleTree; rfl
@[simp] theorem scrambleTree_errinfo (s : State) : (scrambleTree s).errinfo = s.errinfo := by unfold scrambleTree; rfl
@[simp] theorem scrambleTree_freq (s : State) : (scrambleTree s).freq = s.freq := by unfold scrambleTree; rfl
@[simp] theorem scrambleTree_node (s : State) : (scrambleTree s).node = drawNode s.draws := by unfold scrambleTree; rfl
@[simp] theorem scrambleTree_root (s : State) : (scrambleTree s).root = (Config.freeTreeRegs s.draws).1 := by unfold scrambleTree; rfl
@[simp] theorem scrambleTree_nleaves (s : State) : (scrambleTree s).nleaves =
    (Config.freeTreeRegs s.draws).2.1.val := by unfold scrambleTree; rfl
@[simp] theorem scrambleTree_nnodes (s : State) : (scrambleTree s).nnodes = (Config.freeTreeRegs s.draws).2.2.val := by unfold scrambleTree; rfl
@[simp] theorem scrambleTree_code (s : State) : (scrambleTree s).code = s.code := by unfold scrambleTree; rfl
@[simp] theorem scrambleTree_phase (s : State) : (scrambleTree s).phase = s.phase := by unfold scrambleTree; rfl
@[simp] theorem scrambleTree_work (s : State) : (scrambleTree s).work = s.work := by unfold scrambleTree; rfl
@[simp] theorem scrambleTree_src (s : State) : (scrambleTree s).src = s.src := by unfold scrambleTree; rfl
@[simp] theorem scrambleTree_snk (s : State) : (scrambleTree s).snk = s.snk := by unfold scrambleTree; rfl
@[simp] theorem scrambleTree_resetLine (s : State) : (scrambleTree s).resetLine = s.resetLine := by unfold scrambleTree; rfl
@[simp] theorem scrambleTree_agenda (s : State) : (scrambleTree s).agenda = s.agenda := by unfold scrambleTree; rfl
@[simp] theorem scrambleTree_bus (s : State) : (scrambleTree s).bus = s.bus := by unfold scrambleTree; rfl
@[simp] theorem scrambleTree_draws (s : State) : (scrambleTree s).draws = s.draws + 1 := by unfold scrambleTree; rfl

/-! ### scrambleCode -/

@[simp] theorem scrambleCode_build (s : State) : (scrambleCode s).build = s.build := rfl
@[simp] theorem scrambleCode_cmd (s : State) : (scrambleCode s).cmd = s.cmd := rfl
@[simp] theorem scrambleCode_status (s : State) : (scrambleCode s).status = s.status := rfl
@[simp] theorem scrambleCode_arg0 (s : State) : (scrambleCode s).arg0 = s.arg0 := rfl
@[simp] theorem scrambleCode_arg1 (s : State) : (scrambleCode s).arg1 = s.arg1 := rfl
@[simp] theorem scrambleCode_result0 (s : State) : (scrambleCode s).result0 = s.result0 := rfl
@[simp] theorem scrambleCode_result1 (s : State) : (scrambleCode s).result1 = s.result1 := rfl
@[simp] theorem scrambleCode_total (s : State) : (scrambleCode s).total = s.total := rfl
@[simp] theorem scrambleCode_skipped (s : State) : (scrambleCode s).skipped = s.skipped := rfl
@[simp] theorem scrambleCode_errinfo (s : State) : (scrambleCode s).errinfo = s.errinfo := rfl
@[simp] theorem scrambleCode_freq (s : State) : (scrambleCode s).freq = s.freq := rfl
@[simp] theorem scrambleCode_node (s : State) : (scrambleCode s).node = s.node := rfl
@[simp] theorem scrambleCode_root (s : State) : (scrambleCode s).root = s.root := rfl
@[simp] theorem scrambleCode_nleaves (s : State) : (scrambleCode s).nleaves = s.nleaves := rfl
@[simp] theorem scrambleCode_nnodes (s : State) : (scrambleCode s).nnodes = s.nnodes := rfl
@[simp] theorem scrambleCode_code (s : State) : (scrambleCode s).code = drawCode s.draws := rfl
@[simp] theorem scrambleCode_phase (s : State) : (scrambleCode s).phase = s.phase := rfl
@[simp] theorem scrambleCode_work (s : State) : (scrambleCode s).work = s.work := rfl
@[simp] theorem scrambleCode_src (s : State) : (scrambleCode s).src = s.src := rfl
@[simp] theorem scrambleCode_snk (s : State) : (scrambleCode s).snk = s.snk := rfl
@[simp] theorem scrambleCode_resetLine (s : State) : (scrambleCode s).resetLine = s.resetLine := rfl
@[simp] theorem scrambleCode_agenda (s : State) : (scrambleCode s).agenda = s.agenda := rfl
@[simp] theorem scrambleCode_bus (s : State) : (scrambleCode s).bus = s.bus := rfl
@[simp] theorem scrambleCode_draws (s : State) : (scrambleCode s).draws = s.draws + 1 := rfl

/-! ### clearCode -/

@[simp] theorem clearCode_build (s : State) : (clearCode s).build = s.build := rfl
@[simp] theorem clearCode_cmd (s : State) : (clearCode s).cmd = s.cmd := rfl
@[simp] theorem clearCode_status (s : State) : (clearCode s).status = s.status := rfl
@[simp] theorem clearCode_arg0 (s : State) : (clearCode s).arg0 = s.arg0 := rfl
@[simp] theorem clearCode_arg1 (s : State) : (clearCode s).arg1 = s.arg1 := rfl
@[simp] theorem clearCode_result0 (s : State) : (clearCode s).result0 = s.result0 := rfl
@[simp] theorem clearCode_result1 (s : State) : (clearCode s).result1 = s.result1 := rfl
@[simp] theorem clearCode_total (s : State) : (clearCode s).total = s.total := rfl
@[simp] theorem clearCode_skipped (s : State) : (clearCode s).skipped = s.skipped := rfl
@[simp] theorem clearCode_errinfo (s : State) : (clearCode s).errinfo = s.errinfo := rfl
@[simp] theorem clearCode_freq (s : State) : (clearCode s).freq = s.freq := rfl
@[simp] theorem clearCode_node (s : State) : (clearCode s).node = s.node := rfl
@[simp] theorem clearCode_root (s : State) : (clearCode s).root = s.root := rfl
@[simp] theorem clearCode_nleaves (s : State) : (clearCode s).nleaves = s.nleaves := rfl
@[simp] theorem clearCode_nnodes (s : State) : (clearCode s).nnodes = s.nnodes := rfl
@[simp] theorem clearCode_code (s : State) : (clearCode s).code = Vector.replicate 257 noCode := rfl
@[simp] theorem clearCode_phase (s : State) : (clearCode s).phase = s.phase := rfl
@[simp] theorem clearCode_work (s : State) : (clearCode s).work = s.work := rfl
@[simp] theorem clearCode_src (s : State) : (clearCode s).src = s.src := rfl
@[simp] theorem clearCode_snk (s : State) : (clearCode s).snk = s.snk := rfl
@[simp] theorem clearCode_resetLine (s : State) : (clearCode s).resetLine = s.resetLine := rfl
@[simp] theorem clearCode_agenda (s : State) : (clearCode s).agenda = s.agenda := rfl
@[simp] theorem clearCode_bus (s : State) : (clearCode s).bus = s.bus := rfl
@[simp] theorem clearCode_draws (s : State) : (clearCode s).draws = s.draws := rfl

/-! ### addHdrBits -/

@[simp] theorem addHdrBits_build (n : Nat) (s : State) : (addHdrBits n s).build = s.build := rfl
@[simp] theorem addHdrBits_cmd (n : Nat) (s : State) : (addHdrBits n s).cmd = s.cmd := rfl
@[simp] theorem addHdrBits_status (n : Nat) (s : State) : (addHdrBits n s).status = s.status := rfl
@[simp] theorem addHdrBits_arg0 (n : Nat) (s : State) : (addHdrBits n s).arg0 = s.arg0 := rfl
@[simp] theorem addHdrBits_arg1 (n : Nat) (s : State) : (addHdrBits n s).arg1 = s.arg1 := rfl
@[simp] theorem addHdrBits_result0 (n : Nat) (s : State) : (addHdrBits n s).result0 = s.result0 := rfl
@[simp] theorem addHdrBits_result1 (n : Nat) (s : State) : (addHdrBits n s).result1 = s.result1 := rfl
@[simp] theorem addHdrBits_total (n : Nat) (s : State) : (addHdrBits n s).total = s.total := rfl
@[simp] theorem addHdrBits_skipped (n : Nat) (s : State) : (addHdrBits n s).skipped = s.skipped := rfl
@[simp] theorem addHdrBits_errinfo (n : Nat) (s : State) : (addHdrBits n s).errinfo = s.errinfo := rfl
@[simp] theorem addHdrBits_freq (n : Nat) (s : State) : (addHdrBits n s).freq = s.freq := rfl
@[simp] theorem addHdrBits_node (n : Nat) (s : State) : (addHdrBits n s).node = s.node := rfl
@[simp] theorem addHdrBits_root (n : Nat) (s : State) : (addHdrBits n s).root = s.root := rfl
@[simp] theorem addHdrBits_nleaves (n : Nat) (s : State) : (addHdrBits n s).nleaves = s.nleaves := rfl
@[simp] theorem addHdrBits_nnodes (n : Nat) (s : State) : (addHdrBits n s).nnodes = s.nnodes := rfl
@[simp] theorem addHdrBits_code (n : Nat) (s : State) : (addHdrBits n s).code = s.code := rfl
@[simp] theorem addHdrBits_phase (n : Nat) (s : State) : (addHdrBits n s).phase = s.phase := rfl
@[simp] theorem addHdrBits_work (n : Nat) (s : State) : (addHdrBits n s).work =
    { s.work with hdrBits := s.work.hdrBits + n } := rfl
@[simp] theorem addHdrBits_src (n : Nat) (s : State) : (addHdrBits n s).src = s.src := rfl
@[simp] theorem addHdrBits_snk (n : Nat) (s : State) : (addHdrBits n s).snk = s.snk := rfl
@[simp] theorem addHdrBits_resetLine (n : Nat) (s : State) : (addHdrBits n s).resetLine = s.resetLine := rfl
@[simp] theorem addHdrBits_agenda (n : Nat) (s : State) : (addHdrBits n s).agenda = s.agenda := rfl
@[simp] theorem addHdrBits_bus (n : Nat) (s : State) : (addHdrBits n s).bus = s.bus := rfl
@[simp] theorem addHdrBits_draws (n : Nat) (s : State) : (addHdrBits n s).draws = s.draws := rfl

/-! ### takeSlot -/

@[simp] theorem takeSlot_build (s : State) : (takeSlot s).build = s.build := rfl
@[simp] theorem takeSlot_cmd (s : State) : (takeSlot s).cmd = s.cmd := rfl
@[simp] theorem takeSlot_status (s : State) : (takeSlot s).status = s.status := rfl
@[simp] theorem takeSlot_arg0 (s : State) : (takeSlot s).arg0 = s.arg0 := rfl
@[simp] theorem takeSlot_arg1 (s : State) : (takeSlot s).arg1 = s.arg1 := rfl
@[simp] theorem takeSlot_result0 (s : State) : (takeSlot s).result0 = s.result0 := rfl
@[simp] theorem takeSlot_result1 (s : State) : (takeSlot s).result1 = s.result1 := rfl
@[simp] theorem takeSlot_total (s : State) : (takeSlot s).total = s.total := rfl
@[simp] theorem takeSlot_skipped (s : State) : (takeSlot s).skipped = s.skipped := rfl
@[simp] theorem takeSlot_errinfo (s : State) : (takeSlot s).errinfo = s.errinfo := rfl
@[simp] theorem takeSlot_freq (s : State) : (takeSlot s).freq = s.freq := rfl
@[simp] theorem takeSlot_node (s : State) : (takeSlot s).node = s.node := rfl
@[simp] theorem takeSlot_root (s : State) : (takeSlot s).root = s.root := rfl
@[simp] theorem takeSlot_nleaves (s : State) : (takeSlot s).nleaves = s.nleaves := rfl
@[simp] theorem takeSlot_nnodes (s : State) : (takeSlot s).nnodes = s.nnodes := rfl
@[simp] theorem takeSlot_code (s : State) : (takeSlot s).code = s.code := rfl
@[simp] theorem takeSlot_phase (s : State) : (takeSlot s).phase = s.phase := rfl
@[simp] theorem takeSlot_work (s : State) : (takeSlot s).work = { s.work with slots := s.work.slots + 1 } := rfl
@[simp] theorem takeSlot_src (s : State) : (takeSlot s).src = s.src := rfl
@[simp] theorem takeSlot_snk (s : State) : (takeSlot s).snk = s.snk := rfl
@[simp] theorem takeSlot_resetLine (s : State) : (takeSlot s).resetLine = s.resetLine := rfl
@[simp] theorem takeSlot_agenda (s : State) : (takeSlot s).agenda = s.agenda := rfl
@[simp] theorem takeSlot_bus (s : State) : (takeSlot s).bus = s.bus := rfl
@[simp] theorem takeSlot_draws (s : State) : (takeSlot s).draws = s.draws := rfl

/-! ### setPass -/

@[simp] theorem setPass_build (n : Nat) (s : State) : (setPass n s).build = s.build := rfl
@[simp] theorem setPass_cmd (n : Nat) (s : State) : (setPass n s).cmd = s.cmd := rfl
@[simp] theorem setPass_status (n : Nat) (s : State) : (setPass n s).status = s.status := rfl
@[simp] theorem setPass_arg0 (n : Nat) (s : State) : (setPass n s).arg0 = s.arg0 := rfl
@[simp] theorem setPass_arg1 (n : Nat) (s : State) : (setPass n s).arg1 = s.arg1 := rfl
@[simp] theorem setPass_result0 (n : Nat) (s : State) : (setPass n s).result0 = s.result0 := rfl
@[simp] theorem setPass_result1 (n : Nat) (s : State) : (setPass n s).result1 = s.result1 := rfl
@[simp] theorem setPass_total (n : Nat) (s : State) : (setPass n s).total = s.total := rfl
@[simp] theorem setPass_skipped (n : Nat) (s : State) : (setPass n s).skipped = s.skipped := rfl
@[simp] theorem setPass_errinfo (n : Nat) (s : State) : (setPass n s).errinfo = s.errinfo := rfl
@[simp] theorem setPass_freq (n : Nat) (s : State) : (setPass n s).freq = s.freq := rfl
@[simp] theorem setPass_node (n : Nat) (s : State) : (setPass n s).node = s.node := rfl
@[simp] theorem setPass_root (n : Nat) (s : State) : (setPass n s).root = s.root := rfl
@[simp] theorem setPass_nleaves (n : Nat) (s : State) : (setPass n s).nleaves = s.nleaves := rfl
@[simp] theorem setPass_nnodes (n : Nat) (s : State) : (setPass n s).nnodes = s.nnodes := rfl
@[simp] theorem setPass_code (n : Nat) (s : State) : (setPass n s).code = s.code := rfl
@[simp] theorem setPass_phase (n : Nat) (s : State) : (setPass n s).phase = s.phase := rfl
@[simp] theorem setPass_work (n : Nat) (s : State) : (setPass n s).work = { s.work with pass := n } := rfl
@[simp] theorem setPass_src (n : Nat) (s : State) : (setPass n s).src = s.src := rfl
@[simp] theorem setPass_snk (n : Nat) (s : State) : (setPass n s).snk = s.snk := rfl
@[simp] theorem setPass_resetLine (n : Nat) (s : State) : (setPass n s).resetLine = s.resetLine := rfl
@[simp] theorem setPass_agenda (n : Nat) (s : State) : (setPass n s).agenda = s.agenda := rfl
@[simp] theorem setPass_bus (n : Nat) (s : State) : (setPass n s).bus = s.bus := rfl
@[simp] theorem setPass_draws (n : Nat) (s : State) : (setPass n s).draws = s.draws := rfl

/-! ### setWalker -/

@[simp] theorem setWalker_build (p : Slot) (s : State) : (setWalker p s).build = s.build := rfl
@[simp] theorem setWalker_cmd (p : Slot) (s : State) : (setWalker p s).cmd = s.cmd := rfl
@[simp] theorem setWalker_status (p : Slot) (s : State) : (setWalker p s).status = s.status := rfl
@[simp] theorem setWalker_arg0 (p : Slot) (s : State) : (setWalker p s).arg0 = s.arg0 := rfl
@[simp] theorem setWalker_arg1 (p : Slot) (s : State) : (setWalker p s).arg1 = s.arg1 := rfl
@[simp] theorem setWalker_result0 (p : Slot) (s : State) : (setWalker p s).result0 = s.result0 := rfl
@[simp] theorem setWalker_result1 (p : Slot) (s : State) : (setWalker p s).result1 = s.result1 := rfl
@[simp] theorem setWalker_total (p : Slot) (s : State) : (setWalker p s).total = s.total := rfl
@[simp] theorem setWalker_skipped (p : Slot) (s : State) : (setWalker p s).skipped = s.skipped := rfl
@[simp] theorem setWalker_errinfo (p : Slot) (s : State) : (setWalker p s).errinfo = s.errinfo := rfl
@[simp] theorem setWalker_freq (p : Slot) (s : State) : (setWalker p s).freq = s.freq := rfl
@[simp] theorem setWalker_node (p : Slot) (s : State) : (setWalker p s).node = s.node := rfl
@[simp] theorem setWalker_root (p : Slot) (s : State) : (setWalker p s).root = s.root := rfl
@[simp] theorem setWalker_nleaves (p : Slot) (s : State) : (setWalker p s).nleaves = s.nleaves := rfl
@[simp] theorem setWalker_nnodes (p : Slot) (s : State) : (setWalker p s).nnodes = s.nnodes := rfl
@[simp] theorem setWalker_code (p : Slot) (s : State) : (setWalker p s).code = s.code := rfl
@[simp] theorem setWalker_phase (p : Slot) (s : State) : (setWalker p s).phase = s.phase := rfl
@[simp] theorem setWalker_work (p : Slot) (s : State) : (setWalker p s).work = { s.work with walker := p } := rfl
@[simp] theorem setWalker_src (p : Slot) (s : State) : (setWalker p s).src = s.src := rfl
@[simp] theorem setWalker_snk (p : Slot) (s : State) : (setWalker p s).snk = s.snk := rfl
@[simp] theorem setWalker_resetLine (p : Slot) (s : State) : (setWalker p s).resetLine = s.resetLine := rfl
@[simp] theorem setWalker_agenda (p : Slot) (s : State) : (setWalker p s).agenda = s.agenda := rfl
@[simp] theorem setWalker_bus (p : Slot) (s : State) : (setWalker p s).bus = s.bus := rfl
@[simp] theorem setWalker_draws (p : Slot) (s : State) : (setWalker p s).draws = s.draws := rfl

/-! ### setSymbols -/

@[simp] theorem setSymbols_build (n : Nat) (s : State) : (setSymbols n s).build = s.build := rfl
@[simp] theorem setSymbols_cmd (n : Nat) (s : State) : (setSymbols n s).cmd = s.cmd := rfl
@[simp] theorem setSymbols_status (n : Nat) (s : State) : (setSymbols n s).status = s.status := rfl
@[simp] theorem setSymbols_arg0 (n : Nat) (s : State) : (setSymbols n s).arg0 = s.arg0 := rfl
@[simp] theorem setSymbols_arg1 (n : Nat) (s : State) : (setSymbols n s).arg1 = s.arg1 := rfl
@[simp] theorem setSymbols_result0 (n : Nat) (s : State) : (setSymbols n s).result0 = s.result0 := rfl
@[simp] theorem setSymbols_result1 (n : Nat) (s : State) : (setSymbols n s).result1 = s.result1 := rfl
@[simp] theorem setSymbols_total (n : Nat) (s : State) : (setSymbols n s).total = s.total := rfl
@[simp] theorem setSymbols_skipped (n : Nat) (s : State) : (setSymbols n s).skipped = s.skipped := rfl
@[simp] theorem setSymbols_errinfo (n : Nat) (s : State) : (setSymbols n s).errinfo = s.errinfo := rfl
@[simp] theorem setSymbols_freq (n : Nat) (s : State) : (setSymbols n s).freq = s.freq := rfl
@[simp] theorem setSymbols_node (n : Nat) (s : State) : (setSymbols n s).node = s.node := rfl
@[simp] theorem setSymbols_root (n : Nat) (s : State) : (setSymbols n s).root = s.root := rfl
@[simp] theorem setSymbols_nleaves (n : Nat) (s : State) : (setSymbols n s).nleaves = s.nleaves := rfl
@[simp] theorem setSymbols_nnodes (n : Nat) (s : State) : (setSymbols n s).nnodes = s.nnodes := rfl
@[simp] theorem setSymbols_code (n : Nat) (s : State) : (setSymbols n s).code = s.code := rfl
@[simp] theorem setSymbols_phase (n : Nat) (s : State) : (setSymbols n s).phase = s.phase := rfl
@[simp] theorem setSymbols_work (n : Nat) (s : State) : (setSymbols n s).work = { s.work with symbols := n } := rfl
@[simp] theorem setSymbols_src (n : Nat) (s : State) : (setSymbols n s).src = s.src := rfl
@[simp] theorem setSymbols_snk (n : Nat) (s : State) : (setSymbols n s).snk = s.snk := rfl
@[simp] theorem setSymbols_resetLine (n : Nat) (s : State) : (setSymbols n s).resetLine = s.resetLine := rfl
@[simp] theorem setSymbols_agenda (n : Nat) (s : State) : (setSymbols n s).agenda = s.agenda := rfl
@[simp] theorem setSymbols_bus (n : Nat) (s : State) : (setSymbols n s).bus = s.bus := rfl
@[simp] theorem setSymbols_draws (n : Nat) (s : State) : (setSymbols n s).draws = s.draws := rfl

/-! ### putTreeValid -/

@[simp] theorem putTreeValid_build (b : Bool) (s : State) : (putTreeValid b s).build = s.build := rfl
@[simp] theorem putTreeValid_cmd (b : Bool) (s : State) : (putTreeValid b s).cmd = s.cmd := rfl
@[simp] theorem putTreeValid_status (b : Bool) (s : State) : (putTreeValid b s).status =
    { s.status with treeValid := b } := rfl
@[simp] theorem putTreeValid_arg0 (b : Bool) (s : State) : (putTreeValid b s).arg0 = s.arg0 := rfl
@[simp] theorem putTreeValid_arg1 (b : Bool) (s : State) : (putTreeValid b s).arg1 = s.arg1 := rfl
@[simp] theorem putTreeValid_result0 (b : Bool) (s : State) : (putTreeValid b s).result0 = s.result0 := rfl
@[simp] theorem putTreeValid_result1 (b : Bool) (s : State) : (putTreeValid b s).result1 = s.result1 := rfl
@[simp] theorem putTreeValid_total (b : Bool) (s : State) : (putTreeValid b s).total = s.total := rfl
@[simp] theorem putTreeValid_skipped (b : Bool) (s : State) : (putTreeValid b s).skipped = s.skipped := rfl
@[simp] theorem putTreeValid_errinfo (b : Bool) (s : State) : (putTreeValid b s).errinfo = s.errinfo := rfl
@[simp] theorem putTreeValid_freq (b : Bool) (s : State) : (putTreeValid b s).freq = s.freq := rfl
@[simp] theorem putTreeValid_node (b : Bool) (s : State) : (putTreeValid b s).node = s.node := rfl
@[simp] theorem putTreeValid_root (b : Bool) (s : State) : (putTreeValid b s).root = s.root := rfl
@[simp] theorem putTreeValid_nleaves (b : Bool) (s : State) : (putTreeValid b s).nleaves = s.nleaves := rfl
@[simp] theorem putTreeValid_nnodes (b : Bool) (s : State) : (putTreeValid b s).nnodes = s.nnodes := rfl
@[simp] theorem putTreeValid_code (b : Bool) (s : State) : (putTreeValid b s).code = s.code := rfl
@[simp] theorem putTreeValid_phase (b : Bool) (s : State) : (putTreeValid b s).phase = s.phase := rfl
@[simp] theorem putTreeValid_work (b : Bool) (s : State) : (putTreeValid b s).work = s.work := rfl
@[simp] theorem putTreeValid_src (b : Bool) (s : State) : (putTreeValid b s).src = s.src := rfl
@[simp] theorem putTreeValid_snk (b : Bool) (s : State) : (putTreeValid b s).snk = s.snk := rfl
@[simp] theorem putTreeValid_resetLine (b : Bool) (s : State) : (putTreeValid b s).resetLine = s.resetLine := rfl
@[simp] theorem putTreeValid_agenda (b : Bool) (s : State) : (putTreeValid b s).agenda = s.agenda := rfl
@[simp] theorem putTreeValid_bus (b : Bool) (s : State) : (putTreeValid b s).bus = s.bus := rfl
@[simp] theorem putTreeValid_draws (b : Bool) (s : State) : (putTreeValid b s).draws = s.draws := rfl

/-! ### putTableValid -/

@[simp] theorem putTableValid_build (b : Bool) (s : State) : (putTableValid b s).build = s.build := rfl
@[simp] theorem putTableValid_cmd (b : Bool) (s : State) : (putTableValid b s).cmd = s.cmd := rfl
@[simp] theorem putTableValid_status (b : Bool) (s : State) : (putTableValid b s).status =
    { s.status with tableValid := b } := rfl
@[simp] theorem putTableValid_arg0 (b : Bool) (s : State) : (putTableValid b s).arg0 = s.arg0 := rfl
@[simp] theorem putTableValid_arg1 (b : Bool) (s : State) : (putTableValid b s).arg1 = s.arg1 := rfl
@[simp] theorem putTableValid_result0 (b : Bool) (s : State) : (putTableValid b s).result0 = s.result0 := rfl
@[simp] theorem putTableValid_result1 (b : Bool) (s : State) : (putTableValid b s).result1 = s.result1 := rfl
@[simp] theorem putTableValid_total (b : Bool) (s : State) : (putTableValid b s).total = s.total := rfl
@[simp] theorem putTableValid_skipped (b : Bool) (s : State) : (putTableValid b s).skipped = s.skipped := rfl
@[simp] theorem putTableValid_errinfo (b : Bool) (s : State) : (putTableValid b s).errinfo = s.errinfo := rfl
@[simp] theorem putTableValid_freq (b : Bool) (s : State) : (putTableValid b s).freq = s.freq := rfl
@[simp] theorem putTableValid_node (b : Bool) (s : State) : (putTableValid b s).node = s.node := rfl
@[simp] theorem putTableValid_root (b : Bool) (s : State) : (putTableValid b s).root = s.root := rfl
@[simp] theorem putTableValid_nleaves (b : Bool) (s : State) : (putTableValid b s).nleaves = s.nleaves := rfl
@[simp] theorem putTableValid_nnodes (b : Bool) (s : State) : (putTableValid b s).nnodes = s.nnodes := rfl
@[simp] theorem putTableValid_code (b : Bool) (s : State) : (putTableValid b s).code = s.code := rfl
@[simp] theorem putTableValid_phase (b : Bool) (s : State) : (putTableValid b s).phase = s.phase := rfl
@[simp] theorem putTableValid_work (b : Bool) (s : State) : (putTableValid b s).work = s.work := rfl
@[simp] theorem putTableValid_src (b : Bool) (s : State) : (putTableValid b s).src = s.src := rfl
@[simp] theorem putTableValid_snk (b : Bool) (s : State) : (putTableValid b s).snk = s.snk := rfl
@[simp] theorem putTableValid_resetLine (b : Bool) (s : State) : (putTableValid b s).resetLine = s.resetLine := rfl
@[simp] theorem putTableValid_agenda (b : Bool) (s : State) : (putTableValid b s).agenda = s.agenda := rfl
@[simp] theorem putTableValid_bus (b : Bool) (s : State) : (putTableValid b s).bus = s.bus := rfl
@[simp] theorem putTableValid_draws (b : Bool) (s : State) : (putTableValid b s).draws = s.draws := rfl

/-! ### putWrote -/

@[simp] theorem putWrote_build (b : Bool) (s : State) : (putWrote b s).build = s.build := rfl
@[simp] theorem putWrote_cmd (b : Bool) (s : State) : (putWrote b s).cmd = s.cmd := rfl
@[simp] theorem putWrote_status (b : Bool) (s : State) : (putWrote b s).status = { s.status with wrote := b } := rfl
@[simp] theorem putWrote_arg0 (b : Bool) (s : State) : (putWrote b s).arg0 = s.arg0 := rfl
@[simp] theorem putWrote_arg1 (b : Bool) (s : State) : (putWrote b s).arg1 = s.arg1 := rfl
@[simp] theorem putWrote_result0 (b : Bool) (s : State) : (putWrote b s).result0 = s.result0 := rfl
@[simp] theorem putWrote_result1 (b : Bool) (s : State) : (putWrote b s).result1 = s.result1 := rfl
@[simp] theorem putWrote_total (b : Bool) (s : State) : (putWrote b s).total = s.total := rfl
@[simp] theorem putWrote_skipped (b : Bool) (s : State) : (putWrote b s).skipped = s.skipped := rfl
@[simp] theorem putWrote_errinfo (b : Bool) (s : State) : (putWrote b s).errinfo = s.errinfo := rfl
@[simp] theorem putWrote_freq (b : Bool) (s : State) : (putWrote b s).freq = s.freq := rfl
@[simp] theorem putWrote_node (b : Bool) (s : State) : (putWrote b s).node = s.node := rfl
@[simp] theorem putWrote_root (b : Bool) (s : State) : (putWrote b s).root = s.root := rfl
@[simp] theorem putWrote_nleaves (b : Bool) (s : State) : (putWrote b s).nleaves = s.nleaves := rfl
@[simp] theorem putWrote_nnodes (b : Bool) (s : State) : (putWrote b s).nnodes = s.nnodes := rfl
@[simp] theorem putWrote_code (b : Bool) (s : State) : (putWrote b s).code = s.code := rfl
@[simp] theorem putWrote_phase (b : Bool) (s : State) : (putWrote b s).phase = s.phase := rfl
@[simp] theorem putWrote_work (b : Bool) (s : State) : (putWrote b s).work = s.work := rfl
@[simp] theorem putWrote_src (b : Bool) (s : State) : (putWrote b s).src = s.src := rfl
@[simp] theorem putWrote_snk (b : Bool) (s : State) : (putWrote b s).snk = s.snk := rfl
@[simp] theorem putWrote_resetLine (b : Bool) (s : State) : (putWrote b s).resetLine = s.resetLine := rfl
@[simp] theorem putWrote_agenda (b : Bool) (s : State) : (putWrote b s).agenda = s.agenda := rfl
@[simp] theorem putWrote_bus (b : Bool) (s : State) : (putWrote b s).bus = s.bus := rfl
@[simp] theorem putWrote_draws (b : Bool) (s : State) : (putWrote b s).draws = s.draws := rfl

/-! ### putNothingValid -/

@[simp] theorem putNothingValid_build (s : State) : (putNothingValid s).build = s.build := rfl
@[simp] theorem putNothingValid_cmd (s : State) : (putNothingValid s).cmd = s.cmd := rfl
@[simp] theorem putNothingValid_status (s : State) : (putNothingValid s).status =
    { s.status with treeValid := false, tableValid := false } := rfl
@[simp] theorem putNothingValid_arg0 (s : State) : (putNothingValid s).arg0 = s.arg0 := rfl
@[simp] theorem putNothingValid_arg1 (s : State) : (putNothingValid s).arg1 = s.arg1 := rfl
@[simp] theorem putNothingValid_result0 (s : State) : (putNothingValid s).result0 = s.result0 := rfl
@[simp] theorem putNothingValid_result1 (s : State) : (putNothingValid s).result1 = s.result1 := rfl
@[simp] theorem putNothingValid_total (s : State) : (putNothingValid s).total = s.total := rfl
@[simp] theorem putNothingValid_skipped (s : State) : (putNothingValid s).skipped = s.skipped := rfl
@[simp] theorem putNothingValid_errinfo (s : State) : (putNothingValid s).errinfo = s.errinfo := rfl
@[simp] theorem putNothingValid_freq (s : State) : (putNothingValid s).freq = s.freq := rfl
@[simp] theorem putNothingValid_node (s : State) : (putNothingValid s).node = s.node := rfl
@[simp] theorem putNothingValid_root (s : State) : (putNothingValid s).root = s.root := rfl
@[simp] theorem putNothingValid_nleaves (s : State) : (putNothingValid s).nleaves = s.nleaves := rfl
@[simp] theorem putNothingValid_nnodes (s : State) : (putNothingValid s).nnodes = s.nnodes := rfl
@[simp] theorem putNothingValid_code (s : State) : (putNothingValid s).code = s.code := rfl
@[simp] theorem putNothingValid_phase (s : State) : (putNothingValid s).phase = s.phase := rfl
@[simp] theorem putNothingValid_work (s : State) : (putNothingValid s).work = s.work := rfl
@[simp] theorem putNothingValid_src (s : State) : (putNothingValid s).src = s.src := rfl
@[simp] theorem putNothingValid_snk (s : State) : (putNothingValid s).snk = s.snk := rfl
@[simp] theorem putNothingValid_resetLine (s : State) : (putNothingValid s).resetLine = s.resetLine := rfl
@[simp] theorem putNothingValid_agenda (s : State) : (putNothingValid s).agenda = s.agenda := rfl
@[simp] theorem putNothingValid_bus (s : State) : (putNothingValid s).bus = s.bus := rfl
@[simp] theorem putNothingValid_draws (s : State) : (putNothingValid s).draws = s.draws := rfl

/-! ### coreReset -/

@[simp] theorem coreReset_build (s : State) : (coreReset s).build = s.build := rfl
@[simp] theorem coreReset_cmd (s : State) : (coreReset s).cmd = 0 := rfl
@[simp] theorem coreReset_status (s : State) : (coreReset s).status = Status.clear := rfl
@[simp] theorem coreReset_arg0 (s : State) : (coreReset s).arg0 = 0 := rfl
@[simp] theorem coreReset_arg1 (s : State) : (coreReset s).arg1 = 0 := rfl
@[simp] theorem coreReset_result0 (s : State) : (coreReset s).result0 = 0 := rfl
@[simp] theorem coreReset_result1 (s : State) : (coreReset s).result1 = 0 := rfl
@[simp] theorem coreReset_total (s : State) : (coreReset s).total = 0 := rfl
@[simp] theorem coreReset_skipped (s : State) : (coreReset s).skipped = 0 := rfl
@[simp] theorem coreReset_errinfo (s : State) : (coreReset s).errinfo = 0 := rfl
@[simp] theorem coreReset_freq (s : State) : (coreReset s).freq = drawFreq s.draws := rfl
@[simp] theorem coreReset_node (s : State) : (coreReset s).node = drawNode s.draws := rfl
@[simp] theorem coreReset_root (s : State) : (coreReset s).root = (Config.freeTreeRegs s.draws).1 := rfl
@[simp] theorem coreReset_nleaves (s : State) : (coreReset s).nleaves = (Config.freeTreeRegs s.draws).2.1.val := rfl
@[simp] theorem coreReset_nnodes (s : State) : (coreReset s).nnodes = (Config.freeTreeRegs s.draws).2.2.val := rfl
@[simp] theorem coreReset_code (s : State) : (coreReset s).code = drawCode s.draws := rfl
@[simp] theorem coreReset_phase (s : State) : (coreReset s).phase = .idle := rfl
@[simp] theorem coreReset_work (s : State) : (coreReset s).work = Work.fresh := rfl
@[simp] theorem coreReset_src (s : State) : (coreReset s).src = s.src := rfl
@[simp] theorem coreReset_snk (s : State) : (coreReset s).snk = s.snk := rfl
@[simp] theorem coreReset_resetLine (s : State) : (coreReset s).resetLine = false := rfl
@[simp] theorem coreReset_agenda (s : State) : (coreReset s).agenda = s.agenda := rfl
@[simp] theorem coreReset_bus (s : State) : (coreReset s).bus = .none := rfl
@[simp] theorem coreReset_draws (s : State) : (coreReset s).draws = s.draws + 1 := rfl

end Sys2Proof.Machine
end

