-- ==== Sys2Proof/Laws/Ops.lean ====
section
/-! SUPPORT. One lemma for each shared operation: everything it can do. -/

namespace Sys2Proof.Machine

/-! ### Bit strings -/

@[simp] theorem natToBits_length (n v : Nat) : (natToBits n v).length = n := by
  induction n with
  | zero => rfl
  | succ n ih => simp [natToBits, ih]

/-- Reading starts from the value so far. -/
theorem foldl_bits (b : Bits) (v : Nat) :
    b.foldl (fun v x => 2 * v + x.toNat) v = v * 2 ^ b.length + bitsToNat b := by
  induction b generalizing v with
  | nil => simp [bitsToNat]
  | cons x b ih =>
    have h0 := ih x.toNat
    have hv := ih (2 * v + x.toNat)
    simp only [bitsToNat, List.foldl_cons, List.length_cons, Nat.mul_zero, Nat.zero_add] at *
    rw [hv, h0, pow_succ]
    ring

theorem bitsToNat_cons (x : Bool) (b : Bits) : bitsToNat (x :: b) = x.toNat * 2 ^ b.length + bitsToNat b := by
  have h := foldl_bits b x.toNat
  simpa [bitsToNat] using h

theorem bitsToNat_append (a b : Bits) : bitsToNat (a ++ b) = bitsToNat a * 2 ^ b.length + bitsToNat b := by
  have h := foldl_bits b (bitsToNat a)
  simpa [bitsToNat] using h

theorem bitsToNat_lt (b : Bits) : bitsToNat b < 2 ^ b.length := by
  induction b with
  | nil => simp [bitsToNat]
  | cons x b ih =>
    rw [bitsToNat_cons, List.length_cons, pow_succ]
    cases x <;> simp <;> omega

/-- A field that is written and read back is the value's n low bits (R80, R83). -/
theorem bitsToNat_natToBits (n v : Nat) : bitsToNat (natToBits n v) = v % 2 ^ n := by
  induction n with
  | zero => simp [natToBits, bitsToNat, Nat.mod_one]
  | succ n ih =>
    rw [natToBits, bitsToNat_cons, ih, natToBits_length, Nat.mod_pow_succ, Nat.toNat_testBit]
    ring

/-- A field that is read and written back is the same bits. -/
theorem natToBits_bitsToNat (b : Bits) : natToBits b.length (bitsToNat b) = b := by
  suffices h : ∀ v, natToBits b.length (v * 2 ^ b.length + bitsToNat b) = b by simpa using h 0
  induction b with
  | nil => intro v; rfl
  | cons x b ih =>
    intro v
    have hlt := bitsToNat_lt b
    have e : v * 2 ^ (b.length + 1) + (x.toNat * 2 ^ b.length + bitsToNat b)
        = (2 * v + x.toNat) * 2 ^ b.length + bitsToNat b := by rw [pow_succ]; ring
    rw [bitsToNat_cons, List.length_cons, natToBits, e, ih, Nat.testBit_eq_decide_div_mod_eq,
      Nat.mul_comm, Nat.mul_add_div (by positivity), Nat.div_eq_of_lt hlt]
    cases x <;> simp

@[simp] theorem natToBits_one_bool (b : Bool) : natToBits 1 b.toNat = [b] := by cases b <;> rfl

/-! ### Running a rule -/

@[simp] theorem pure_run {α : Type} (a : α) (r : Run) : (pure a : Cmd α).run r = .ok a r := rfl

theorem bind_run {α β : Type} (x : Cmd α) (f : α → Cmd β) (r : Run) :
    (x >>= f).run r = match x.run r with
      | .ok a r' => (f a).run r'
      | .error e r' => .error e r' := by
  simp only [EStateM.run, bind, EStateM.bind]
  cases x r <;> rfl

@[simp] theorem map_run {α β : Type} (g : α → β) (x : Cmd α) (r : Run) :
    (g <$> x).run r = match x.run r with
      | .ok a r' => .ok (g a) r'
      | .error e r' => .error e r' := by
  simp only [EStateM.run, Functor.map, EStateM.map]
  cases x r <;> rfl

/-- A rule goes on after a part that ended. -/
theorem bind_of_ok {α β : Type} {x : Cmd α} {f : α → Cmd β} {r r' : Run} {a : α} (h : x.run r = .ok a r') :
    (x >>= f).run r = (f a).run r' := by rw [bind_run, h]

/-- Nothing after a raise runs (R14). -/
theorem bind_of_error {α β : Type} {x : Cmd α} {f : α → Cmd β} {r r' : Run} {e : Stop} (h : x.run r = .error e r') :
    (x >>= f).run r = .error e r' := by rw [bind_run, h]

/-- A sequence ends well exactly when both of its parts do. -/
theorem bind_eq_ok {α β : Type} {x : Cmd α} {f : α → Cmd β} {r r'' : Run} {b : β} :
    (x >>= f).run r = .ok b r'' ↔ ∃ a r', x.run r = .ok a r' ∧ (f a).run r' = .ok b r'' := by
  rw [bind_run]
  cases x.run r <;> simp

@[simp] theorem getState_run (r : Run) : getState.run r = .ok r.st r := rfl
@[simp] theorem modState_run (f : State → State) (r : Run) : (modState f).run r = .ok () { r with st := f r.st } := rfl
@[simp] theorem raise_run {α : Type} (e : ErrKind) (info : Word) (r : Run) :
    (raise e info : Cmd α).run r = .error (.raised e info) r := rfl
@[simp] theorem stillRunning_run {α : Type} (r : Run) : (stillRunning : Cmd α).run r = .error .paused r := rfl

@[simp] theorem tick_unlimited (s : State) : tick.run ⟨s, none⟩ = .ok () ⟨s, none⟩ := rfl
@[simp] theorem tick_more (s : State) (k : Nat) : tick.run ⟨s, some (k + 1)⟩ = .ok () ⟨s, some k⟩ := rfl
@[simp] theorem tick_over (s : State) : tick.run ⟨s, some 0⟩ = .error .paused ⟨s, some 0⟩ := rfl

@[simp] theorem completing_unlimited (s : State) : completing.run ⟨s, none⟩ = .ok () ⟨s, none⟩ := rfl
@[simp] theorem completing_limited (s : State) (k : Nat) : completing.run ⟨s, some k⟩ = .error .paused ⟨s, some k⟩ := rfl

@[simp] theorem setTreeValid_run (b : Bool) (s : State) :
    (setTreeValid b).run ⟨s, none⟩ = .ok () ⟨putTreeValid b s, none⟩ := rfl
@[simp] theorem setTableValid_run (b : Bool) (s : State) :
    (setTableValid b).run ⟨s, none⟩ = .ok () ⟨putTableValid b s, none⟩ := rfl
@[simp] theorem setWrote_run (b : Bool) (s : State) :
    (setWrote b).run ⟨s, none⟩ = .ok () ⟨putWrote b s, none⟩ := rfl

/-- All that `unspecifiedOnError` does. -/
theorem unspecifiedOnError_run {α : Type} (f : State → State) (x : Cmd α) (r : Run) :
    (unspecifiedOnError f x).run r = match x.run r with
      | .ok a r' => .ok a r'
      | .error (.raised e info) r' => .error (.raised e info) { r' with st := f r'.st }
      | .error .paused r' => .error .paused r' := by
  show (match x.run r with | .error (.raised e info) r' => _ | other => other) = _
  rcases x.run r with ⟨a, r'⟩ | ⟨e | _, r'⟩ <;> rfl

/-! ### Ports -/

/-- `SrcRead(n)` with n bits or more left (R80). -/
theorem srcRead_value {n : Nat} {s : State} (h : n ≤ srcLeft s) :
    (srcRead n).run ⟨s, none⟩ = .ok (some (srcField n s)) ⟨setSrcPos (s.src.pos + n) s, none⟩ := by
  simp [srcRead, h]

/-- `SrcRead(n)` with fewer than n bits left: EOS, and they are consumed (R80). -/
theorem srcRead_eos {n : Nat} {s : State} (h : srcLeft s < n) :
    (srcRead n).run ⟨s, none⟩ = .ok none ⟨setSrcPos s.src.bits.length s, none⟩ := by
  simp [srcRead, Nat.not_le.2 h]

/-- The value of a field is below 2^n (R13). -/
theorem srcField_lt {n : Nat} {s : State} (h : n ≤ srcLeft s) : srcField n s < 2 ^ n := by
  have hb := bitsToNat_lt ((s.src.bits.drop s.src.pos).take n)
  rwa [List.length_take, List.length_drop, Nat.min_eq_left (by exact h)] at hb

@[simp] theorem srcRewind_run (s : State) : srcRewind.run ⟨s, none⟩ = .ok () ⟨setSrcPos 0 s, none⟩ := rfl

@[simp] theorem snkWrite_run (n v : Nat) (s : State) :
    (snkWrite n v).run ⟨s, none⟩ = .ok () ⟨appendSnk (natToBits n v) s, none⟩ := rfl

@[simp] theorem appendSnk_nil (s : State) : appendSnk [] s = s := by simp [appendSnk]

@[simp] theorem appendSnk_append (a b : Bits) (s : State) :
    appendSnk b (appendSnk a s) = appendSnk (a ++ b) s := by simp [appendSnk]

/-- A bit string written bit by bit arrives whole. -/
@[simp] theorem snkWriteBits_run (b : Bits) (s : State) :
    (snkWriteBits b).run ⟨s, none⟩ = .ok () ⟨appendSnk b s, none⟩ := by
  induction b generalizing s with
  | nil => simp [snkWriteBits]
  | cons x b ih => simp [snkWriteBits, ih]

/-! ### Operands -/

theorem symbolOperand_ok {r : Run} (h : r.st.arg0.toNat < 256) :
    symbolOperand.run r = .ok ⟨r.st.arg0.toNat, h⟩ r := by simp [symbolOperand, h]

theorem symbolOperand_error {r : Run} (h : 256 ≤ r.st.arg0.toNat) :
    symbolOperand.run r = .error (.raised .invalidSymbol r.st.arg0) r := by
  simp [symbolOperand, Nat.not_lt.2 h]

theorem codeSymbolOperand_ok {r : Run} (h : r.st.arg0.toNat < 257) :
    codeSymbolOperand.run r = .ok ⟨r.st.arg0.toNat, h⟩ r := by simp [codeSymbolOperand, h]

theorem codeSymbolOperand_error {r : Run} (h : 257 ≤ r.st.arg0.toNat) :
    codeSymbolOperand.run r = .error (.raised .invalidSymbol r.st.arg0) r := by
  simp [codeSymbolOperand, Nat.not_lt.2 h]

/-! ### Completion -/

/-- A command whose rule ends well is done. -/
theorem runCommand_ok {c : Cmd Unit} {s : State} {r : Run} (h : c.run ⟨s, none⟩ = .ok () r) :
    runCommand c s = .next (done r.st) := by rw [runCommand, h, settle]

/-- A command whose rule raises an error ends in it. -/
theorem runCommand_raised {c : Cmd Unit} {s : State} {r : Run} {e : ErrKind} {info : Word}
    (h : c.run ⟨s, none⟩ = .error (.raised e info) r) : runCommand c s = .next (endInError e info r.st) := by
  rw [runCommand, h, settle]

/-- Everything running a command can do: it is done, it ended in an error, or it runs on. -/
theorem runCommand_cases (c : Cmd Unit) (s : State) :
    (∃ r, c.run ⟨s, none⟩ = .ok () r ∧ runCommand c s = .next (done r.st)) ∨
    (∃ e info r, c.run ⟨s, none⟩ = .error (.raised e info) r ∧ runCommand c s = .next (endInError e info r.st)) ∨
    (∃ r, c.run ⟨s, none⟩ = .error .paused r ∧ runCommand c s = .next s) := by
  rcases h : c.run ⟨s, none⟩ with ⟨a, r⟩ | ⟨e | _, r⟩
  · exact .inl ⟨r, rfl, runCommand_ok h⟩
  · exact .inr (.inl ⟨_, _, r, rfl, runCommand_raised h⟩)
  · exact .inr (.inr ⟨r, rfl, by rw [runCommand, h, settle]⟩)

/-- `endInError` is the end the statements speak of. -/
theorem endsInError_endInError (e : ErrKind) (info : Word) (s : State) : EndsInError e info s (endInError e info s) :=
  ⟨_, _, _, rfl⟩

/-! ### Steps -/

/-- Every instruction runs its rule. -/
theorem exec_eq_runCommand (i : Instr) (s : State) : exec i s = runCommand (ruleOf i) s := by
  cases i <;> rfl

theorem step_of_event {s : State} {e : Event} {rest : List Event} (h : s.agenda = e :: rest) :
    step s = perform e { s with agenda := rest } := by rw [step, h]

theorem step_of_no_event {s : State} (h : s.agenda = []) : step s = coreMove s := by rw [step, h]

/-- Everything the core's own move can do. -/
theorem coreMove_cases (s : State) :
    (s.phase = .idle ∧ coreMove s = .next s) ∨
    (∃ k i, s.phase = .run k ∧ decode s.cmd = .ok i ∧ coreMove s = exec i s) ∨
    (∃ k e, s.phase = .run k ∧ decode s.cmd = .error e ∧ coreMove s = .next (rejectIllegal s)) := by
  rcases hp : s.phase with _ | k
  · exact .inl ⟨rfl, by simp [coreMove, hp]⟩
  · rcases hd : decode s.cmd with e | i
    · exact .inr (.inr ⟨k, e, rfl, rfl, by simp [coreMove, hp, hd]⟩)
    · exact .inr (.inl ⟨k, i, rfl, rfl, by simp [coreMove, hp, hd]⟩)

/-- A host access is not accepted in reset, moves a register, or is a bad one (R95, R96, R360). -/
theorem hostAccess_cases (off size : Nat) (take : Reg → State → Host.Outcome State Fault Refusal) (s : State) :
    (s.resetLine = true ∧ hostAccess off size take s = .next { s with bus := .none }) ∨
    (∃ r, s.resetLine = false ∧ accessedReg off size = some r ∧ hostAccess off size take s = take r s) ∨
    (s.resetLine = false ∧ accessedReg off size = none ∧ hostAccess off size take s = badAccess s) := by
  unfold hostAccess
  cases s.resetLine
  · cases h : accessedReg off size with
    | none => exact .inr (.inr ⟨rfl, rfl, rfl⟩)
    | some r => exact .inr (.inl ⟨r, rfl, rfl, rfl⟩)
  · exact .inl ⟨rfl, rfl⟩

/-- Everything a host's write can do (R98, R111). -/
theorem hostWriteReg_cases (r : Reg) (v : Word) (s : State) :
    (keepsDuties r v s = true ∧ hostWriteReg r v s = .next (writeReg r v s)) ∨
    (keepsDuties r v s = false ∧ hostWriteReg r v s = .refused .srcOutOfPlace) := by
  unfold hostWriteReg
  cases keepsDuties r v s
  · exact .inr ⟨rfl, rfl⟩
  · exact .inl ⟨rfl, rfl⟩

/-- A write that starts no command keeps the duties. -/
theorem keepsDuties_of_busy {s : State} (h : s.status.busy = true) (r : Reg) (v : Word) : keepsDuties r v s = true := by
  simp [keepsDuties, h]

theorem keepsDuties_of_ne_cmd {r : Reg} (h : r ≠ .cmd) (v : Word) (s : State) : keepsDuties r v s = true := by
  simp [keepsDuties, h]

end Sys2Proof.Machine
end

