-- ==== Sys2Proof/Laws/PerInstr.lean ====
section
/-! SUPPORT. Statements about every command, made one command at a time. -/

namespace Sys2Proof.Laws.EncodedWord

/-- The word of a command meets the three checks on a command word (R136). -/
def Statement : Instr → Prop := fun i => (cmdFields (encode i)).wellFormed = true

theorem nop : Statement .nop := rfl
theorem fcClear : Statement .fcClear := rfl
theorem fcCount : Statement .fcCount := rfl
theorem fcGet : Statement .fcGet := rfl
theorem fcAdd : Statement .fcAdd := rfl
theorem fcSet : Statement .fcSet := rfl
theorem tbBuild : Statement .tbBuild := rfl
theorem ctMake : Statement .ctMake := rfl
theorem ctGet : Statement .ctGet := rfl
theorem hcWrite : Statement .hcWrite := rfl
theorem hcRead : Statement .hcRead := rfl
theorem encCompress : Statement .encCompress := rfl
theorem encCompressF : Statement .encCompressF := rfl
theorem decDecompress : Statement .decDecompress := rfl

end Sys2Proof.Laws.EncodedWord
end

