-- ==== Sys2Proof/Laws/Units.lean ====
section
/-! SUPPORT. One lemma for each operation that two commands share: sending and reading a header, walking the tree for its
codes, counting the input. -/

namespace Sys2Proof.Machine

/-! ### Sending a header -/

theorem addHdrBits_add (a b : Nat) (s : State) : addHdrBits b (addHdrBits a s) = addHdrBits (a + b) s := by
  simp [addHdrBits, Nat.add_assoc]

theorem addHdrBits_appendSnk (a : Nat) (b : Bits) (s : State) :
    appendSnk b (addHdrBits a s) = addHdrBits a (appendSnk b s) := rfl

/-- `emit` sends the token of the tree below its slot and counts its bits (R240, R241). -/
theorem emit_run {fuel : Nat} {i : Slot} {s : State} {tree : CodeTree} (h : treeOf s.node fuel i = some tree) :
    (emit fuel i).run ⟨s, none⟩ = .ok () ⟨addHdrBits tree.tokens.length (appendSnk tree.tokens s), none⟩ := by
  induction fuel generalizing i s tree with
  | zero => simp [treeOf] at h
  | succ fuel ih =>
    unfold treeOf at h
    cases hn : s.node[i.val] with
    | leaf sym w =>
      simp only [hn, Option.some.injEq] at h
      subst h
      simp [emit, hn, CodeTree.tokens, natToBits, addHdrBits]
    | internal left right w =>
      simp only [hn] at h
      split at h
      · rename_i l r hl hr
        cases h
        simp only [emit, bind_run, getState_run, hn, snkWrite_run, modState_run]
        rw [ih (s := addHdrBits 1 (appendSnk (natToBits 1 0) s)) hl]
        dsimp only
        rw [ih (s := addHdrBits l.tokens.length (appendSnk l.tokens (addHdrBits 1 (appendSnk (natToBits 1 0) s)))) hr]
        simp [CodeTree.tokens, natToBits, addHdrBits_appendSnk, addHdrBits_add]
        congr 1
        omega
      · cases h

/-- `write_header()` sends the magic and the tree token, and its result is their length (R240). -/
theorem writeHeader_run {s : State} {tree : CodeTree} (h : s.tree = some tree) :
    writeHeader.run ⟨s, none⟩ = .ok ()
      ⟨{ appendSnk (s.magicBits ++ tree.tokens) s with work := { s.work with hdrBits := 32 + tree.tokens.length } },
        none⟩ := by
  simp only [writeHeader, bind_run, getState_run, snkWrite_run, modState_run]
  refine (emit_run (tree := tree) (s := { appendSnk (natToBits 32 s.build.hdrMagic.toNat) s with
    work := { s.work with hdrBits := 32 } }) h).trans ?_
  simp [addHdrBits, appendSnk, State.magicBits]

/-! ### Walking the tree for its codes -/

/-- The leaves of a tree recorded one after the other. -/
def recordAll : List (BitVec 9 × Bits) → Cmd Unit
  | [] => pure ()
  | p :: rest => do
    recordCode p.1 p.2
    recordAll rest

theorem recordAll_append (a b : List (BitVec 9 × Bits)) (r : Run) :
    (recordAll (a ++ b)).run r = (recordAll a >>= fun _ => recordAll b).run r := by
  induction a generalizing r with
  | nil => simp [recordAll]
  | cons p a ih =>
    simp only [List.cons_append, recordAll, bind_run]
    cases (recordCode p.1 p.2).run r with
    | ok u r' => simp only [ih, bind_run]
    | error e r' => rfl

/-- Everything recording a leaf can do (R221). -/
theorem recordCode_cases (sym : BitVec 9) (path : Bits) (r : Run) :
    (∃ h : sym.toNat < 257, r.st.code[sym.toNat].present = false ∧
      (recordCode sym path).run r = .ok () { r with st := setCode ⟨sym.toNat, h⟩ (entryOfPath path) r.st }) ∨
    (∃ h : sym.toNat < 257, r.st.code[sym.toNat].present = true ∧
      (recordCode sym path).run r = .error (.raised .treeError (sym.setWidth 32)) r) ∨
    (257 ≤ sym.toNat ∧ (recordCode sym path).run r = .error (.raised .invalidSymbol (sym.setWidth 32)) r) := by
  by_cases h : sym.toNat < 257
  · cases hp : r.st.code[sym.toNat].present
    · exact .inl ⟨h, hp, by simp [recordCode, h, hp]⟩
    · exact .inr (.inl ⟨h, hp, by simp [recordCode, h, hp]⟩)
  · exact .inr (.inr ⟨by omega, by simp [recordCode, h]⟩)

/-- Recording leaves changes nothing but CODE. -/
theorem recordAll_node {l : List (BitVec 9 × Bits)} {r r' : Run} (h : (recordAll l).run r = .ok () r') :
    r'.st.node = r.st.node := by
  induction l generalizing r with
  | nil => simp only [recordAll, pure_run, EStateM.Result.ok.injEq] at h; rw [h.2]
  | cons p l ih =>
    simp only [recordAll] at h
    obtain ⟨u, r₁, h₁, h₂⟩ := bind_eq_ok.1 h
    rw [ih h₂]
    rcases recordCode_cases p.1 p.2 r with ⟨_, _, e⟩ | ⟨_, _, e⟩ | ⟨_, e⟩ <;> rw [e] at h₁ <;> cases h₁
    rfl

/-- `visit` records the leaves below its slot in pre-order, each with its path (R221). -/
theorem visit_run {fuel : Nat} {i : Slot} {path : Bits} {r : Run} {tree : CodeTree}
    (h : treeOf r.st.node fuel i = some tree) : (visit fuel i path).run r = (recordAll (tree.codesBelow path)).run r := by
  induction fuel generalizing i path r tree with
  | zero => simp [treeOf] at h
  | succ fuel ih =>
    unfold treeOf at h
    cases hn : r.st.node[i.val] with
    | leaf sym w =>
      simp only [hn, Option.some.injEq] at h
      subst h
      simp only [visit, bind_run, getState_run, hn, CodeTree.codesBelow, recordAll]
      cases (recordCode sym path).run r <;> rfl
    | internal left right w =>
      simp only [hn] at h
      split at h
      · rename_i tl tr hl hr
        cases h
        simp only [visit, bind_run, getState_run, hn, CodeTree.codesBelow, recordAll_append, ih hl]
        cases hl' : (recordAll (tl.codesBelow (path ++ [false]))).run r with
        | ok u r' => exact ih (by rw [recordAll_node hl']; exact hr)
        | error e r' => rfl
      · cases h

/-! ### Reading a header -/

/-- The node memory after the token of a tree was read with n slots taken before it (R243). -/
def rebuilt : CodeTree → Nat → Vector Node 513 → Vector Node 513
  | .leaf sym, n, node => node.set (slotOf n).val (.leaf sym 0)
  | .node l r, n, node =>
    (rebuilt r (n + 1 + l.nodeCount) (rebuilt l (n + 1) node)).set (slotOf n).val
      (.internal (slotOf (n + 1)) (slotOf (n + 1 + l.nodeCount)) 0)

/-- The machine after the token of a tree was read. -/
def parsed (tree : CodeTree) (s : State) : State :=
  { s with
    src := { s.src with pos := s.src.pos + tree.tokens.length },
    work := { s.work with slots := s.work.slots + tree.nodeCount, hdrBits := s.work.hdrBits + tree.tokens.length },
    nleaves := s.nleaves + tree.leafCount,
    node := rebuilt tree s.work.slots s.node }

/-- A field that stands next on SRC is what is read (R80). -/
theorem srcRead_field {n v : Nat} {s : State} {rest : Bits} (h : s.unread = natToBits n v ++ rest) :
    (srcRead n).run ⟨s, none⟩ = .ok (some (v % 2 ^ n)) ⟨setSrcPos (s.src.pos + n) s, none⟩ := by
  have hl : n ≤ srcLeft s := by
    have := congrArg List.length h
    simp only [State.unread, List.length_drop, List.length_append, natToBits_length] at this
    unfold srcLeft
    omega
  rw [srcRead_value hl]
  have : (s.src.bits.drop s.src.pos).take n = natToBits n v := by
    change s.unread.take n = _
    rw [h, List.take_left' (natToBits_length n v)]
  rw [srcField, this, bitsToNat_natToBits]

/-- What is left after a field was read. -/
theorem unread_setSrcPos {n : Nat} {a rest : Bits} {s : State} (h : s.unread = a ++ rest) (hn : a.length = n) :
    (setSrcPos (s.src.pos + n) s).unread = rest := by
  change s.src.bits.drop (s.src.pos + n) = rest
  rw [← List.drop_drop]
  change s.unread.drop n = rest
  rw [h, List.drop_left' hn]

theorem nodeCount_pos (tree : CodeTree) : 1 ≤ tree.nodeCount := by
  cases tree <;> simp [CodeTree.nodeCount]

/-- `parse()` reads the token of a tree that fits the node memory, and rebuilds the tree (R243). -/
theorem parse_run {tree : CodeTree} {fuel : Nat} {s : State} {rest : Bits} (hu : s.unread = tree.tokens ++ rest)
    (hs : s.work.slots + tree.nodeCount ≤ 513) (hf : tree.nodeCount ≤ fuel) :
    (parse fuel).run ⟨s, none⟩ = .ok (slotOf s.work.slots) ⟨parsed tree s, none⟩ := by
  induction tree generalizing fuel s rest with
  | leaf sym =>
    obtain ⟨fuel, rfl⟩ : ∃ k, fuel = k + 1 := ⟨fuel - 1, by simp [CodeTree.nodeCount] at hf; omega⟩
    have hne : s.work.slots ≠ 513 := by simp [CodeTree.nodeCount] at hs; omega
    have hu1 : (takeSlot s).unread = natToBits 1 1 ++ (natToBits 9 sym.toNat ++ rest) := by
      rw [show (takeSlot s).unread = s.unread from rfl, hu]; simp [CodeTree.tokens, natToBits]
    have hu2 : (addHdrBits 1 (setSrcPos (s.src.pos + 1) (takeSlot s))).unread
        = natToBits 9 sym.toNat ++ rest := unread_setSrcPos hu1 (natToBits_length 1 1)
    simp only [parse, bind_run, getState_run, hne, if_false, modState_run, srcRead_field hu1]
    norm_num
    rw [srcRead_field hu2]
    have hmod : sym.toNat % 512 = sym.toNat := Nat.mod_eq_of_lt sym.isLt
    simp [parsed, storeLeaf, setNode, addHdrBits, setSrcPos, takeSlot, rebuilt, CodeTree.tokens,
      CodeTree.nodeCount, CodeTree.leafCount, hmod, Nat.add_assoc]
  | node l r ihl ihr =>
    obtain ⟨fuel, rfl⟩ : ∃ k, fuel = k + 1 := ⟨fuel - 1, by simp [CodeTree.nodeCount] at hf; omega⟩
    simp only [CodeTree.nodeCount] at hs hf
    have hne : s.work.slots ≠ 513 := by omega
    have hu1 : (takeSlot s).unread = natToBits 1 0 ++ (l.tokens ++ (r.tokens ++ rest)) := by
      rw [show (takeSlot s).unread = s.unread from rfl, hu]; simp [CodeTree.tokens, natToBits]
    have hu2 : (addHdrBits 1 (setSrcPos (s.src.pos + 1) (takeSlot s))).unread
        = l.tokens ++ (r.tokens ++ rest) := unread_setSrcPos hu1 (natToBits_length 1 0)
    simp only [parse, bind_run, getState_run, hne, if_false, modState_run, srcRead_field hu1]
    norm_num
    have hl := ihl (fuel := fuel) hu2 (by simp [addHdrBits, setSrcPos, takeSlot]; omega) (by omega)
    simp only [hl]
    have hu3 : (parsed l (addHdrBits 1 (setSrcPos (s.src.pos + 1) (takeSlot s)))).unread
        = r.tokens ++ rest := unread_setSrcPos hu2 rfl
    have hr := ihr (fuel := fuel) hu3 (by simp [parsed, addHdrBits, setSrcPos, takeSlot]; omega) (by omega)
    simp only [hr]
    simp [parsed, setNode, addHdrBits, setSrcPos, takeSlot, rebuilt, CodeTree.tokens, CodeTree.nodeCount,
      CodeTree.leafCount, Nat.add_assoc, Nat.add_comm 1]

/-! ### Counting -/

/-- Counting a value that both counters have room for (R186). -/
theorem countSymbol_inRange {v : Nat} {r : Run} (h : v < 256) (ht : r.st.total ≠ countMax) :
    (countSymbol v).run r = .ok () { r with st := bumpCount ⟨v, h⟩ r.st } := by
  simp [countSymbol, h, ht]

theorem countSymbol_outOfRange {v : Nat} {r : Run} (h : 256 ≤ v) (ht : r.st.skipped ≠ countMax) :
    (countSymbol v).run r = .ok () { r with st := { r.st with skipped := r.st.skipped + 1 } } := by
  simp [countSymbol, Nat.not_lt.2 h, ht]

/-- A counter at 2^32 - 1 is not passed: CountOverflow, and nothing has changed (R181, R186). -/
theorem countSymbol_overflow {v : Nat} {r : Run}
    (h : v < 256 ∧ r.st.total = countMax ∨ 256 ≤ v ∧ r.st.skipped = countMax) :
    (countSymbol v).run r = .error (.raised .countOverflow 0) r := by
  rcases h with ⟨h, ht⟩ | ⟨h, ht⟩
  · simp [countSymbol, h, ht]
  · simp [countSymbol, Nat.not_lt.2 h, ht]

/-- One turn of the counting loop: the next symbol is counted, or EOS ends it (R186). -/
theorem countLoop_turn (fuel : Nat) (s : State) :
    (countLoop (fuel + 1)).run ⟨s, none⟩ =
      if s.build.symInW ≤ srcLeft s then
        (countSymbol (srcField s.build.symInW s) >>= fun _ => countLoop fuel).run
          ⟨setSrcPos (s.src.pos + s.build.symInW) s, none⟩
      else .ok () ⟨setSrcPos s.src.bits.length s, none⟩ := by
  by_cases h : s.build.symInW ≤ srcLeft s
  · simp only [countLoop, bind_run, getState_run, srcRead_value h, h, if_true]
  · simp only [countLoop, bind_run, getState_run, srcRead_eos (Nat.not_le.1 h), h, if_false, pure_run]

end Sys2Proof.Machine
end

