-- ==== Sys2Proof/Tests/Slice0.lean ====
section
/-! SUPPORT. Tests of the model, their expected results taken from the tables of spec/95_test_vectors.md (the section is
named at each), and a witness for each obligation that has hypotheses. -/

namespace Sys2Proof.Tests

/- The theorems are checked one after the other: many kernel evaluations at once need more threads than fit. -/
set_option Elab.async false

open Sys2Proof Sys2Proof.Machine

/-! ### Well-formedness and decoding (30_encoding.md) -/

theorem test_reserved_opcode_is_ill_formed :
    CmdWord.wellFormed { res := 0, force := false, op := 0x06 } = false := by decide

theorem test_reserved_bits_are_ill_formed :
    CmdWord.wellFormed { res := 1, force := false, op := 0x40 } = false := by decide

theorem test_force_elsewhere_is_ill_formed :
    CmdWord.wellFormed { res := 0, force := true, op := 0x01 } = false := by decide

/-- The illegal words of section 2.1, each turned down by the check it fails. -/
theorem test_illegal_words_are_refused_by_name :
    decode 0b00000000000000000000000000000110 = .error (.reservedOpcode 0x06) ∧
    decode 0b00000000000000000000000100000001 = .error (.forceNotAllowed 0x01) ∧
    decode 0b00000000000000000000001001000000 = .error (.reservedBits 1) ∧
    decode 0b10000000000000000000000011111111 = .error (.reservedOpcode 0xFF) := by decide

/-- The words of the sequencer's and the frequency counter's commands. -/
theorem test_decode_control_and_counter :
    decode 0b00000000000000000000000000000000 = .ok .nop ∧
    decode 0b00000000000000000000000000000001 = .ok .fcClear ∧
    decode 0b00000000000000000000000000000010 = .ok .fcCount ∧
    decode 0b00000000000000000000000000000011 = .ok .fcGet ∧
    decode 0b00000000000000000000000000000100 = .ok .fcAdd ∧
    decode 0b00000000000000000000000000000101 = .ok .fcSet := by decide

/-- The words of the tree builder's, the code table's and the header codec's commands. -/
theorem test_decode_builder_table_and_header :
    decode 0b00000000000000000000000000010000 = .ok .tbBuild ∧
    decode 0b00000000000000000000000000100000 = .ok .ctMake ∧
    decode 0b00000000000000000000000000100001 = .ok .ctGet ∧
    decode 0b00000000000000000000000000110000 = .ok .hcWrite ∧
    decode 0b00000000000000000000000000110001 = .ok .hcRead := by decide

/-- The words of the encoder's and the decoder's commands. -/
theorem test_decode_encoder_and_decoder :
    decode 0b00000000000000000000000001000000 = .ok .encCompress ∧
    decode 0b00000000000000000000000101000000 = .ok .encCompressF ∧
    decode 0b00000000000000000000000001010000 = .ok .decDecompress := by decide

/-! ### A small machine -/

/-- A value of HDR_MAGIC, whose real value is open. -/
def magicValue : Word := 0x12345678

/-- A machine with everything cleared and the given SRC, SYM_IN_W = 8 + `extra`. -/
def machine (extra : Fin 9) (src : Bits) : State :=
  { build := { hdrMagic := magicValue, symExtra := extra, busErrors := true }, cmd := 0, status := Status.clear,
    arg0 := 0, arg1 := 0, result0 := 0, result1 := 0, total := 0, skipped := 0, errinfo := 0,
    freq := Vector.replicate 256 0, node := Vector.replicate 513 (.leaf 0 0), root := 0, nleaves := 0, nnodes := 0,
    code := Vector.replicate 257 noCode, phase := .idle, work := Work.fresh,
    src := { bits := src, pos := 0, rewindable := true, start := 0 }, snk := [], resetLine := false, agenda := [], bus := .none,
    draws := 0 }

/-- The state after one command. -/
def after (i : Instr) (s : State) : State :=
  match exec i s with
  | .next t => t
  | _ => s

/-- A string of ASCII bytes presented most significant bit first. -/
def text (x : String) : Bits := x.toList.flatMap fun c => natToBits 8 c.toNat

/-- The n low bits of v. -/
def fld (n v : Nat) : Bits := natToBits n v

/-- The 32 bits of HDR_MAGIC. -/
def magicBits : Bits := natToBits 32 magicValue.toNat

/-- A machine whose table holds the given counts. -/
def counts (l : List (Fin 256 × Word)) : State := l.foldl (fun s p => setFreq p.1 p.2 s) (machine 0 [])

/-- STATUS as a number. -/
def st (s : State) : Nat := (statusWord s.status).toNat

/-- The bits of symbol i's code, where there is one. -/
def codeOfSymbol (s : State) (i : Fin 257) : Option Bits :=
  if s.code[i.val].present then some (codePath s.code[i.val]) else none

/-! ### One command (sections 2.1 to 2.6) -/

/-- The row for NOP of section 2.1. -/
theorem test_nop_clears_an_old_error :
    (step ((machine 0 []).withFetchWord 32 0)) = .next (done (accept 0 (machine 0 []))) := rfl

theorem test_illegal_word :
    (match step ((machine 0 []).withFetchWord 32 6) with | .next t => (st t, t.cmd) | _ => (0, 0)) = (0x506, 6) := by
  decide +kernel

theorem test_fcClear :
    (after .fcClear { machine 0 [] with total := 10, skipped := 3, freq := Vector.replicate 256 7 }).freq[97] = 0 := by
  decide +kernel

theorem test_fcCount_teststring :
    (let t := after .fcCount (machine 0 (text "teststring"))
     (t.freq[0x74], t.freq[0x73], t.result0, t.src.pos)) = (3, 2, 10, 80) := by decide +kernel

theorem test_fcCount_nine_bit_symbols :
    (let t := after .fcCount (machine 1 (fld 9 0x61 ++ fld 9 0x1FF ++ fld 9 0x61 ++ fld 2 1))
     (t.total, t.skipped, t.freq[0x61], t.src.pos)) = (2, 1, 2, 29) := by decide +kernel

theorem test_fcGet_out_of_range :
    (let t := after .fcGet { machine 0 [] with arg0 := 0xFFFFFFFF }
     (st t, t.errinfo)) = (0x106, 0xFFFFFFFF) := by decide +kernel

theorem test_fcAdd :
    (let t := after .fcAdd { counts [(0x41, 7)] with arg0 := 0x41 }
     (t.freq[0x41], t.total)) = (8, 0) := by decide +kernel

theorem test_fcAdd_overflow :
    (let t := after .fcAdd { counts [(0x41, 0xFFFFFFFF)] with arg0 := 0x41 }
     (st t, t.freq[0x41])) = (0x606, 0xFFFFFFFF) := by decide +kernel

theorem test_fcSet_out_of_range :
    (let t := after .fcSet { machine 0 [] with arg0 := 300, arg1 := 1 }
     (st t, t.errinfo)) = (0x106, 0x12C) := by decide +kernel

/-- The tree and the table from the row A = B = C = D = 1 of section 2.3: the ties. -/
def ties : State := after .ctMake (after .tbBuild (counts [(65, 1), (66, 1), (67, 1), (68, 1)]))

theorem test_tbBuild_ties :
    (let t := after .tbBuild (counts [(65, 1), (66, 1), (67, 1), (68, 1)])
     (t.result0, t.result1, st t)) = (5, 9, 0x0A) := by decide +kernel

/-- Section 2.3: weights past 32 bits. -/
theorem test_tbBuild_wide_weights :
    (let t := after .tbBuild (counts [(97, 0xFFFFFFFF), (98, 0xFFFFFFFF), (99, 1)])
     weightOf t.node[t.root.val]) = 2 ^ 33 := by decide +kernel

theorem test_ctMake_ties :
    [67, 68, 256, 65, 66, 69].map (codeOfSymbol ties) =
      [some (fld 2 0), some (fld 2 1), some (fld 2 2), some (fld 3 6), some (fld 3 7), none] := by decide +kernel

/-- A table that holds the codes of 'e' and 't' from the teststring table of section 2.3. -/
def twoCodes : State :=
  { setCode 0x65 (entryOfPath [true, true, true, false]) (setCode 0x74 (entryOfPath [true, false]) (machine 0 [])) with
    status := Status.clear.withValid true true }

theorem test_ctGet_reads_a_code :
    (let t := after .ctGet { twoCodes with arg0 := 0x65, arg1 := 0 }
     (t.result0, t.result1)) = (0x80000004, 0xE0000000) := by decide +kernel

theorem test_ctGet_past_the_last_word :
    (let t := after .ctGet { twoCodes with arg0 := 0x74, arg1 := 8 }
     (t.result0, t.result1)) = (0x80000002, 0) := by decide +kernel

/-- The abracadabra tree of section 2.4. -/
def abracadabra : State := after .tbBuild (counts [(97, 5), (98, 2), (114, 2), (99, 1), (100, 1)])

theorem test_hcWrite_abracadabra :
    (let t := after .hcWrite abracadabra
     (t.result0, t.snk)) =
      (97, magicBits ++ fld 1 0 ++ fld 10 0b1001100001 ++ fld 2 0 ++ fld 10 0b1100000000 ++ fld 10 0b1001100010 ++ fld
        1 0
        ++ fld 10 0b1001110010 ++ fld 1 0 ++ fld 10 0b1001100011 ++ fld 10 0b1001100100) := by decide +kernel

theorem test_hcRead_accepts_leaf_300 :
    (let t := after .hcRead (machine 0 (magicBits ++ fld 1 0 ++ fld 10 0b1100101100 ++ fld 10 0b1100000000))
     (t.result0, t.result1, t.src.pos, st t)) = (53, 2, 53, 0x0A) := by decide +kernel

theorem test_hcRead_cut_short :
    (let t := after .hcRead (machine 0 (magicBits ++ fld 1 0 ++ fld 9 0b110000000))
     (t.src.pos, st t)) = (42, 0x306) := by decide +kernel

/-- The F bit separates the two rows of ENC_COMPRESS (R135). -/
theorem test_force_operand : forceOperand .encCompress = false ∧ forceOperand .encCompressF = true := by decide

theorem test_encCompress_needs_rewind :
    (let t := after .encCompress
      { machine 0 [] with src := { bits := text "ab", pos := 3, rewindable := false, start := 3 } }
     (st t, t.src.pos)) = (0x906, 3) := by decide +kernel

theorem test_encCompressF_aab :
    (let t := after .encCompressF (machine 0 (text "aab"))
     t.snk) = (magicBits ++ fld 1 0 ++ fld 10 0b1001100001 ++ fld 1 0 ++ fld 10 0b1001100010
       ++ fld 10 0b1100000000 ++ fld 6 0b001011) := by decide +kernel

theorem test_encCompressF_uncodable_value :
    (let t := after .encCompressF (machine 1 (fld 9 0x61 ++ fld 9 0x1FF ++ fld 9 0x61 ++ fld 2 1))
     (t.errinfo, t.snk.length, st t)) = (0x1FF, 54, 0x11E) := by decide +kernel

/-- An archive whose tree has the leaves 'a' and 'b' and no sentinel (section 2.6). -/
def noSentinel : Bits := magicBits ++ fld 1 0 ++ fld 10 0b1001100001 ++ fld 10 0b1001100010 ++ fld 4 0b0110

theorem test_decDecompress_without_sentinel :
    (let t := after .decDecompress (machine 0 noSentinel)
     (t.snk, t.src.pos, st t)) = (text "abba", 57, 0x30E) := by decide +kernel

theorem test_decDecompress_leaf_300 :
    (let t := after .decDecompress (machine 0 (magicBits ++ fld 1 0 ++ fld 10 0b1100101100 ++ fld 10 0b1100000000 ++
      fld 1 0))
     (t.errinfo, t.src.pos)) = (0x12C, 54) := by decide +kernel

/-- R220: TABLE_VALID is 0 while CT_MAKE runs, whatever it has done so far. -/
theorem test_ctMake_is_seen_without_table :
    [0, 1, 2].map (fun k => (live { accept 0x20 (machine 0 []) with
      phase := .run k, status := Status.clear.withValid false true }).status.tableValid) = [false, false, false] := by
  decide +kernel

/-- R111, duty 3: the host does not start ENC_COMPRESS at another bit than SRC's first. -/
theorem test_compress_out_of_place :
    (match perform (.hostWrite 0x08 4 0x40)
        { machine 0 [] with src := { bits := text "ab", pos := 3, rewindable := true, start := 3 } } with
      | .refused r => r == .srcOutOfPlace
      | _ => false) = true := by decide +kernel

/-! ### The host's side -/

/-- The FC_SET line of program P1 (section 3). -/
theorem test_expansion_of_fcSet :
    pseudoInstruction .fcSet 0x61 5 0 =
      [.hostWrite 0x10 4 0x61, .hostWrite 0x14 4 5, .hostWrite 0x08 4 5, .coreComplete, .hostRead 0x0C 4] := by
  decide +kernel

/-- R97, I2: HDR_MAGIC and ID by byte lane. -/
theorem test_byte_lanes : [0, 1, 2, 3].map (byteLane Config.idValue) = [0x46, 0x46, 0x55, 0x48] := by decide

/-! ### Witnesses: the sequencer and the window -/

/-- A machine on which the command i has been accepted. -/
def running (i : Instr) : State := accept (encode i) (machine 0 [])

/-- A machine on which an illegal word has been accepted. -/
def runningIllegal : State := accept 6 (machine 0 [])

/-- A machine with one thing to happen next. -/
def scheduled (e : Event) (s : State) : State := { s with agenda := [e] }

/-- A machine whose bus has no error response. -/
def machineWithoutBusErrors : State :=
  { machine 0 [] with build := { hdrMagic := magicValue, symExtra := 0, busErrors := false } }

theorem witness_StepRunsTheDecodedCommand :
    (∃ (s : State) (k : Nat) (i : Instr), s.agenda = [] ∧ s.phase = .run k ∧ decode s.cmd = .ok i) ∧
    ∃ s : State, s.agenda = [] ∧ s.phase = .idle :=
  ⟨⟨running .tbBuild, 0, .tbBuild, rfl, rfl, by decide⟩, ⟨machine 0 [], rfl, rfl⟩⟩

theorem witness_CoreMovesWhereScheduled :
    (∃ (s : State) (rest : List Event) (k : Nat) (i : Instr), s.phase = .run k ∧ decode s.cmd = .ok i ∧
      s.agenda = .coreComplete :: rest) ∧
    ∃ (s : State) (rest : List Event) (k : Nat) (n : Nat) (i : Instr), s.phase = .run k ∧ decode s.cmd = .ok i ∧
    s.agenda = .coreAdvance n :: rest :=
  ⟨⟨scheduled .coreComplete (running .hcRead), [], 0, .hcRead, rfl, by decide, rfl⟩,
    ⟨scheduled (.coreAdvance 3) (running .hcRead), [], 0, 3, .hcRead, rfl, by decide, rfl⟩⟩

theorem witness_EachCommandHasExactlyItsWord : Instr.nop ≠ .encCompressF ∧ decode 0x140 = .ok .encCompressF := by decide

theorem witness_IllegalWordRunsNothing :
    (∃ (s : State) (k : Nat) (e : IllegalWord), s.phase = .run k ∧ decode s.cmd = .error e ∧ s.agenda = []) ∧
    ∃ (s : State) (rest : List Event) (k : Nat) (e : IllegalWord), s.phase = .run k ∧ decode s.cmd = .error e ∧
      s.agenda = .coreComplete :: rest :=
  ⟨⟨runningIllegal, 0, .reservedOpcode 6, rfl, by decide, rfl⟩,
    ⟨scheduled .coreComplete runningIllegal, [], 0, .reservedOpcode 6, rfl, by decide, rfl⟩⟩

/-- A machine whose host is about to write w to CMD, SRC's cursor standing at p and its archive beginning at bit 2. -/
def startingAt (p : Nat) (w : Word) : State :=
  scheduled (.hostWrite 0x08 4 w)
    { machine 0 [] with src := { bits := [true, true, true], pos := p, rewindable := true, start := 2 } }

/-- In place and out of place for duty 3, the same for duty 4, and a command that has no such duty. -/
theorem witness_CmdWriteIsAccepted : ∀ c ∈ [(0, 0x40), (0, 0x140), (1, 0x140), (2, 0x31), (2, 0x50), (0, 0x50), (1, 0x02)],
    ∃ (s : State) (rest : List Event) (v : Word), s.agenda = .hostWrite 0x08 4 v :: rest ∧ s.resetLine = false ∧
      s.status.busy = false ∧ s.src.pos = c.1 ∧ s.src.start = 2 ∧ v = c.2 :=
  fun c _ => ⟨startingAt c.1 c.2, [], c.2, rfl, rfl, rfl, rfl, rfl, rfl⟩

theorem witness_BusyWritesAreDropped : ∀ off ∈ [0x00, 0x08, 0x10, 0x3C],
    ∃ (s : State) (rest : List Event) (v : Word), s.agenda = .hostWrite off 4 v :: rest ∧ s.resetLine = false ∧
    s.status.busy = true ∧ off % 4 = 0 ∧
      off < 0x40 := by
  intro off h
  refine ⟨scheduled (.hostWrite off 4 1) (running .nop), [], 1, rfl, rfl, rfl, ?_⟩
  fin_cases h <;> decide

theorem witness_IdleWritesReachOnlyTheOperands : ∀ off ∈ [0x10, 0x14, 0x00, 0x0C, 0x18, 0x3C],
    ∃ (s : State) (rest : List Event) (v : Word), s.agenda = .hostWrite off 4 v :: rest ∧ s.resetLine = false ∧
    s.status.busy = false ∧ off % 4 = 0 ∧
      off < 0x40 ∧ off ≠ 0x08 := by
  intro off h
  refine ⟨scheduled (.hostWrite off 4 1) (machine 0 []), [], 1, rfl, rfl, rfl, ?_⟩
  fin_cases h <;> decide

theorem witness_IdleReadsReturnTheRegisters : ∀ off ∈ [0x00, 0x04, 0x08, 0x0C, 0x10, 0x14, 0x18, 0x1C, 0x20, 0x24,
  0x28, 0x2C,
      0x30, 0x3C],
    ∃ (s : State) (rest : List Event), s.agenda = .hostRead off 4 :: rest ∧ s.resetLine = false ∧
    s.status.busy = false ∧ s.phase = .idle ∧
      off % 4 = 0 ∧ off < 0x40 := by
  intro off h
  refine ⟨scheduled (.hostRead off 4) (machine 0 []), [], rfl, rfl, rfl, rfl, ?_⟩
  fin_cases h <;> decide

theorem witness_BusyReadsAreExactOrUnspecified : ∀ off ∈ [0x00, 0x04, 0x08, 0x0C, 0x10, 0x14, 0x18, 0x28, 0x2C, 0x30,
  0x3C],
    ∃ (s : State) (rest : List Event) (k : Nat), s.agenda = .hostRead off 4 :: rest ∧ s.resetLine = false ∧
    s.status.busy = true ∧ s.phase = .run k ∧
      off % 4 = 0 ∧ off < 0x40 := by
  intro off h
  refine ⟨scheduled (.hostRead off 4) (running .tbBuild), [], 0, rfl, rfl, rfl, rfl, ?_⟩
  fin_cases h <;> decide

theorem witness_BadAccessesChangeNothing : ∀ a ∈ [(0x00, 1), (0x02, 4), (0x40, 4), (0x08, 8)],
    (∃ (s : State) (rest : List Event), s.agenda = .hostRead a.1 a.2 :: rest ∧ s.resetLine = false ∧
    s.build.busErrors = true) ∧
    (∃ (s : State) (rest : List Event) (v : Word), s.agenda = .hostWrite a.1 a.2 v :: rest ∧ s.resetLine = false ∧
    s.build.busErrors = false) ∧
    (a.2 ≠ 4 ∨ a.1 % 4 ≠ 0 ∨ 0x40 ≤ a.1) := by
  intro a h
  refine ⟨⟨scheduled (.hostRead a.1 a.2) (machine 0 []), [], rfl, rfl, rfl⟩,
    ⟨scheduled (.hostWrite a.1 a.2 1) machineWithoutBusErrors, [], 1, rfl, rfl, rfl⟩, ?_⟩
  fin_cases h <;> decide

theorem witness_ResetAbandonsTheCommand :
    (∃ (s : State) (rest : List Event), s.resetLine = true ∧ s.agenda = .hostRead 0x0C 4 :: rest) ∧
    (∃ (s : State) (rest : List Event), s.resetLine = true ∧ s.agenda = .hostWrite 0x08 4 0 :: rest) ∧
    (∃ (s : State) (rest : List Event), s.resetLine = true ∧ s.agenda = .resetRelease :: rest) ∧
    ∃ (s : State) (rest : List Event), s.phase = .run 0 ∧ s.agenda = .resetAssert :: rest :=
  ⟨⟨scheduled (.hostRead 0x0C 4) { machine 0 [] with resetLine := true }, [], rfl, rfl⟩,
    ⟨scheduled (.hostWrite 0x08 4 0) { machine 0 [] with resetLine := true }, [], rfl, rfl⟩,
    ⟨scheduled .resetRelease { machine 0 [] with resetLine := true }, [], rfl, rfl⟩,
    ⟨scheduled .resetAssert (running .encCompress), [], rfl, rfl⟩⟩

theorem witness_StreamsMoveOnlyBetweenCommands :
    (∃ (s : State) (rest : List Event), s.agenda = .collaborate [true] [false] true [] :: rest ∧ s.phase = .idle) ∧
    ∃ (s : State) (rest : List Event), s.agenda = .collaborate [true] [false] true [] :: rest ∧ s.phase ≠ .idle :=
  ⟨⟨scheduled (.collaborate [true] [false] true []) (machine 0 []), [], rfl, rfl⟩,
    ⟨scheduled (.collaborate [true] [false] true []) (running .fcCount), [], rfl, by decide⟩⟩

theorem witness_SrcReadTakesTheNextField : ∀ n ∈ [1, 32], 1 ≤ n ∧ n ≤ 32 := by decide

theorem witness_SnkWriteAppendsTheField : ∀ c ∈ [(1, 1), (32, 2 ^ 32 - 1)], 1 ≤ c.1 ∧ c.1 ≤ 32 ∧ c.2 < 2 ^ c.1 := by decide

/-! ### Witnesses: the frequency counter -/

theorem witness_FcGetReadsOneEntry : ∀ v ∈ [(255 : Word), 256],
    ∃ s : State, s.arg0 = v ∧ (v = 255 → s.arg0.toNat < 256) ∧ (v = 256 → 256 ≤ s.arg0.toNat) := by
  intro v h
  refine ⟨{ machine 0 [] with arg0 := v }, rfl, ?_⟩
  fin_cases h <;> decide

theorem witness_FcAddIncrementsOneEntry :
    (∃ s : State, ∃ h : s.arg0.toNat < 256, s.freq[s.arg0.toNat].toNat < 2 ^ 32 - 1) ∧
    (∃ s : State, ∃ h : s.arg0.toNat < 256, s.freq[s.arg0.toNat].toNat = 2 ^ 32 - 1) ∧
    ∃ s : State, 256 ≤ s.arg0.toNat :=
  ⟨⟨{ counts [(255, 0xFFFFFFFE)] with arg0 := 255 }, by decide, by decide +kernel⟩,
    ⟨{ counts [(255, 0xFFFFFFFF)] with arg0 := 255 }, by decide, by decide +kernel⟩,
    ⟨{ machine 0 [] with arg0 := 256 }, by decide⟩⟩

theorem witness_FcSetStoresOneEntry : (∃ s : State, s.arg0.toNat < 256) ∧ ∃ s : State, 256 ≤ s.arg0.toNat :=
  ⟨⟨{ machine 0 [] with arg0 := 255 }, by decide⟩, ⟨{ machine 0 [] with arg0 := 256 }, by decide⟩⟩

theorem witness_FcCountCountsTheInput :
    ∃ s : State, (inRange s.inputSymbols).length < 2 ^ 32 ∧ (outOfRange s.inputSymbols).length < 2 ^ 32 :=
  ⟨machine 1 (fld 9 0x61 ++ fld 9 0x1FF ++ fld 9 0x61 ++ fld 2 1), by decide +kernel, by decide +kernel⟩

/-- n symbols v in a row, as bits. -/
def repeated (w v : Nat) : Nat → Bits
  | 0 => []
  | n + 1 => natToBits w v ++ repeated w v n

theorem repeated_length (w v n : Nat) : (repeated w v n).length = w * n := by
  induction n with
  | zero => rfl
  | succ n ih => rw [repeated, List.length_append, natToBits_length, ih, Nat.mul_succ, Nat.add_comm]

theorem fieldsOf_repeated {w v : Nat} (hv : v < 2 ^ w) (hw : 0 < w) (n fuel : Nat) (h : n < fuel) :
    fieldsOf w fuel (repeated w v n) = List.replicate n v := by
  induction n generalizing fuel with
  | zero =>
    obtain ⟨fuel, rfl⟩ : ∃ (k : Nat), fuel = k + 1 := ⟨fuel - 1, by omega⟩
    simp [fieldsOf, repeated, hw]
  | succ n ih =>
    obtain ⟨fuel, rfl⟩ : ∃ (k : Nat), fuel = k + 1 := ⟨fuel - 1, by omega⟩
    have hl : ¬ (repeated w v (n + 1)).length < w := by rw [repeated_length, Nat.mul_succ]; omega
    rw [fieldsOf, if_neg hl, repeated, List.take_left' (natToBits_length w v), List.drop_left' (natToBits_length w v),
      bitsToNat_natToBits, Nat.mod_eq_of_lt hv, ih fuel (by omega), List.replicate_succ]

/-- An input of n symbols v and one more. -/
theorem input_repeated {extra : Fin 9} {v : Nat} (hv : v < 2 ^ (extra.val + 8)) (n : Nat) :
    ∃ (s : State) (pre post : List Nat),
      s.src.rewindable = true ∧ s.inputSymbols = pre ++ v :: post ∧ pre.length = n ∧ ∀ x ∈ pre, x = v := by
  have hf := fieldsOf_repeated hv (by omega) (n + 1) (repeated (extra.val + 8) v (n + 1)).length (by
    rw [repeated_length]
    exact lt_of_lt_of_le (by omega : n + 1 < 8 * (n + 1)) (Nat.mul_le_mul_right _ (by omega)))
  rw [List.replicate_succ'] at hf
  exact ⟨machine extra (repeated (extra.val + 8) v (n + 1)), List.replicate n v, [], rfl, hf, List.length_replicate,
    by simp⟩

/-- The values in range are all of a list of symbols in range, and none of one out of range. -/
theorem inRange_of_lt {vs : List Nat} (h : ∀ x ∈ vs, x < 256) : inRange vs = vs ∧ outOfRange vs = [] := by
  constructor
  · exact List.filter_eq_self.2 (by simpa using h)
  · exact List.filter_eq_nil_iff.2 (by simpa using h)

theorem outOfRange_of_le {vs : List Nat} (h : ∀ x ∈ vs, 256 ≤ x) : inRange vs = [] ∧ outOfRange vs = vs := by
  constructor
  · exact List.filter_eq_nil_iff.2 (by simpa using h)
  · exact List.filter_eq_self.2 (by simpa using h)

/-- Either counter can be the one that is full. -/
theorem witness_CountingStopsAtOverflow :
    (∃ (s : State) (pre post : List Nat) (v : Nat), s.src.rewindable = true ∧ s.inputSymbols = pre ++ v :: post ∧
      (inRange pre).length < 2 ^ 32 ∧ (outOfRange pre).length < 2 ^ 32 ∧
      (v < 256 ∧ (inRange pre).length = 2 ^ 32 - 1)) ∧
    ∃ (s : State) (pre post : List Nat) (v : Nat), s.src.rewindable = true ∧ s.inputSymbols = pre ++ v :: post ∧
      (inRange pre).length < 2 ^ 32 ∧ (outOfRange pre).length < 2 ^ 32 ∧
      (256 ≤ v ∧ (outOfRange pre).length = 2 ^ 32 - 1) := by
  constructor
  · obtain ⟨s, pre, post, hr, h, hl, hv⟩ := input_repeated (extra := 0) (v := 255) (by decide) (2 ^ 32 - 1)
    obtain ⟨h₁, h₂⟩ := inRange_of_lt (vs := pre) fun x hx => by rw [hv x hx]; decide
    exact ⟨s, pre, post, 255, hr, h, by rw [h₁, hl]; decide, by rw [h₂]; decide, by decide, by rw [h₁, hl]⟩
  · obtain ⟨s, pre, post, hr, h, hl, hv⟩ := input_repeated (extra := 1) (v := 256) (by decide) (2 ^ 32 - 1)
    obtain ⟨h₁, h₂⟩ := outOfRange_of_le (vs := pre) fun x hx => by rw [hv x hx]
    exact ⟨s, pre, post, 256, hr, h, by rw [h₁]; decide, by rw [h₂, hl]; decide, by decide, by rw [h₂, hl]⟩

/-! ### Witnesses: trees and codes -/

/-- The tree of "aab" (section 2.3, the row a = 2, b = 1). -/
def aabTree : CodeTree := .node (.leaf 97) (.node (.leaf 98) (.leaf 256))

/-- Its nodes, numbered in pre-order. -/
def aabNodes (s : State) : State :=
  setNode 0 (.internal 1 2 0) (setNode 1 (.leaf 97 0) (setNode 2 (.internal 3 4 0) (setNode 3 (.leaf 98 0)
    (setNode 4 (.leaf 256 0) s))))

/-- A machine that holds a valid tree and its code table. -/
def tabled : State :=
  { aabNodes (machine 0 []) with
    status := Status.clear.withValid true true, nleaves := 3, nnodes := 5, code := aabTree.table }

theorem tabled_tree : tabled.tree = some aabTree := by decide +kernel

theorem tabled_statusInv : tabled.statusInv := by
  refine ⟨⟨?_, ?_, ?_⟩, ?_, rfl⟩ <;> simp [tabled, aabNodes, machine, setNode, Status.clear, Status.withValid]

theorem tabled_treeInv : tabled.treeInv :=
  fun _ => ⟨aabTree, tabled_tree, by decide +kernel, by decide, by decide, by decide⟩

theorem tabled_tableInv : tabled.tableInv :=
  fun _ => ⟨rfl, aabTree, tabled_tree, by decide, by decide, rfl⟩

theorem witness_MergeTakesTheTwoLeast : ∃ b : Builder, b.cands.Nodup ∧ 2 ≤ b.cands.length :=
  ⟨{ node := Vector.replicate 513 (.leaf 0 1), cands := [0, 1], next := 2 }, by decide, by decide⟩

theorem witness_TbBuildMakesTheTree : ∃ s s' t' : State, s'.freq = s.freq ∧ exec .tbBuild s' = .next t' :=
  ⟨counts [(97, 100)], { counts [(97, 100)] with arg0 := 1 }, _, rfl, rfl⟩

/-- A leaf's slot and an internal node's slot of a built tree. -/
theorem witness_BuiltWeightsAreExactSums : ∃ s t : State, exec .tbBuild s = .next t ∧
    slotsOf t.node walkFuel t.root = [2, 1, 0] :=
  ⟨counts [(97, 100)], after .tbBuild (counts [(97, 100)]), rfl, by decide +kernel⟩

theorem witness_EmptyTableGivesTheOneLeafTree : ∃ s : State, ∀ i : Fin 256, s.freq[i.val] = 0 :=
  ⟨machine 0 [], by simp [machine]⟩

theorem witness_CtMakeFillsTheTable :
    ∃ (s : State) (tree : CodeTree), s.status.treeValid = true ∧ s.tree = some tree ∧ tree.symbols.Nodup ∧
      ∀ sym ∈ tree.symbols, sym.toNat ≤ 256 :=
  ⟨tabled, aabTree, rfl, tabled_tree, by decide, by decide⟩

/-- Slots 1 and 2 below the root hold leaves for two symbols. -/
def twoLeaves (a b : BitVec 9) : State :=
  { setNode 0 (.internal 1 2 0) (setNode 1 (.leaf a 0) (setNode 2 (.leaf b 0) (machine 0 []))) with
    status := Status.clear.withValid true false, nleaves := 2, nnodes := 3 }

theorem witness_CtMakeReportsTheFirstFault :
    (∃ s : State, s.status.treeValid = false) ∧
    (∃ (s : State) (tree : CodeTree) (pre : List (BitVec 9)) (post : List (BitVec 9)) (sym : BitVec 9),
    s.status.treeValid = true ∧ s.tree = some tree ∧ tree.symbols = pre ++ sym :: post ∧
      pre.Nodup ∧ (∀ x ∈ pre, x.toNat ≤ 256) ∧ 256 < sym.toNat) ∧
    ∃ (s : State) (tree : CodeTree) (pre : List (BitVec 9)) (post : List (BitVec 9)) (sym : BitVec 9),
    s.status.treeValid = true ∧ s.tree = some tree ∧ tree.symbols = pre ++ sym :: post ∧
      pre.Nodup ∧ (∀ x ∈ pre, x.toNat ≤ 256) ∧ sym ∈ pre :=
  ⟨⟨machine 0 [], rfl⟩,
    ⟨twoLeaves 256 257, .node (.leaf 256) (.leaf 257), [256], [], 257, rfl, by decide +kernel, rfl, by decide,
    by decide,
      by decide⟩,
    ⟨twoLeaves 97 97, .node (.leaf 97) (.leaf 97), [97], [], 97, rfl, by decide +kernel, rfl, by decide, by decide,
      by decide⟩⟩

theorem witness_CodeWordHoldsTheCodeMsbFirst : ∃ (e : CodeEntry) (k j j' : Nat), j < 32 ∧ j' < 32 ∧
    decide (32 * k + j < e.len.toNat) = true ∧ decide (32 * k + j' < e.len.toNat) = false :=
  ⟨entryOfPath (List.replicate 255 true), 7, 30, 31, by decide, by decide, by decide +kernel, by decide +kernel⟩

theorem witness_CtGetReadsOneCode :
    (∃ s : State, s.status.tableValid = false) ∧
    (∃ s : State, s.status.tableValid = true ∧ 256 < s.arg0.toNat) ∧
    (∃ s : State, ∃ h : s.arg0.toNat < 257, s.status.tableValid = true ∧ s.code[s.arg0.toNat].present = false) ∧
    (∃ s : State, ∃ h : s.arg0.toNat < 257, s.status.tableValid = true ∧ s.code[s.arg0.toNat].present = true ∧
      s.arg1.toNat < 8) ∧
    ∃ s : State, ∃ h : s.arg0.toNat < 257, s.status.tableValid = true ∧ s.code[s.arg0.toNat].present = true ∧
      ¬ s.arg1.toNat < 8 :=
  ⟨⟨machine 0 [], rfl⟩, ⟨{ twoCodes with arg0 := 257 }, rfl, by decide⟩,
    ⟨{ twoCodes with arg0 := 256 }, by decide, rfl, by decide +kernel⟩,
    ⟨{ twoCodes with arg0 := 0x65, arg1 := 7 }, by decide, rfl, by decide +kernel, by decide⟩,
    ⟨{ twoCodes with arg0 := 0x65, arg1 := 8 }, by decide, rfl, by decide +kernel, by decide⟩⟩

theorem witness_CodesArePathsAndPrefixFree : ∃ (s : State) (tree : CodeTree) (a b : Fin 257), s.tableInv ∧
    s.status.tableValid = true ∧ s.tree = some tree ∧ a ≠ b ∧ s.code[a.val].present = true ∧
    s.code[b.val].present = true :=
  ⟨tabled, aabTree, 97, 256, tabled_tableInv, rfl, tabled_tree, by decide, by decide +kernel, by decide +kernel⟩

/-! ### Witnesses: headers -/

/-- A tree of n + 1 leaves, each the left child of the root of what is left. -/
def comb : Nat → CodeTree
  | 0 => .leaf 256
  | n + 1 => .node (.leaf (BitVec.ofNat 9 n)) (comb n)

theorem witness_HcWriteSendsTheHeader :
    (∃ s : State, s.status.treeValid = false) ∧ ∃ (s : State) (tree : CodeTree), s.status.treeValid = true ∧
      s.tree = some tree :=
  ⟨⟨machine 0 [], rfl⟩, ⟨tabled, aabTree, rfl, tabled_tree⟩⟩

/-- The greatest tree a header may spell: 513 nodes. -/
theorem witness_HcReadRebuildsTheTree :
    ∃ (s : State) (tree : CodeTree) (rest : Bits), s.unread = s.magicBits ++ tree.tokens ++ rest ∧
      tree.nodeCount = 513 :=
  ⟨machine 0 (magicBits ++ (comb 256).tokens ++ [true]), comb 256, [true], rfl, by decide +kernel⟩

theorem witness_ForeignMagicIsFormatError :
    (∃ s : State, s.unread.length = 0) ∧ (∃ s : State, s.unread.length = 31) ∧
    ∃ (s : State) (w : Word) (rest : Bits), s.unread = natToBits 32 w.toNat ++ rest ∧ w ≠ s.build.hdrMagic :=
  ⟨⟨machine 0 [], rfl⟩, ⟨machine 0 (magicBits.take 31), by decide⟩,
    ⟨machine 0 (natToBits 32 (~~~magicValue).toNat ++ [true]), ~~~magicValue, [true], rfl, by decide⟩⟩

/-- n tokens of a tree that leans to the right: an internal node, a leaf, an internal node, … -/
def zigzag : Nat → List HeaderToken
  | 0 => []
  | 1 => [.internal]
  | n + 2 => .internal :: .leaf 97 :: zigzag n

/-- Cut before the first token, inside a leaf after 512 tokens, and before the 513th. -/
theorem witness_BadTreeTokensAreReported_cut :
    ∀ c ∈ [([], []), (zigzag 512, (HeaderToken.leaf 97).bits.take 9), (List.replicate 512 .internal, [])],
    ∃ (s : State) (next : HeaderToken), staysOpen 1 c.1 = true ∧ c.1.length ≤ 512 ∧ c.2 <+: next.bits ∧ c.2 ≠ next.bits ∧
      s.unread = s.magicBits ++ c.1.flatMap HeaderToken.bits ++ c.2 := by
  intro c h
  refine ⟨machine 0 (magicBits ++ c.1.flatMap HeaderToken.bits ++ c.2), .leaf 97, ?_, ?_, ?_, ?_, rfl⟩ <;>
    fin_cases h <;> decide +kernel

/-- 513 tokens of two shapes, and nothing or more bits after them. -/
theorem witness_BadTreeTokensAreReported_overflow :
    ∀ c ∈ [(zigzag 513, []), (List.replicate 513 .internal, [true])],
    ∃ s : State, staysOpen 1 c.1 = true ∧ c.1.length = 513 ∧
      s.unread = s.magicBits ++ c.1.flatMap HeaderToken.bits ++ c.2 := by
  intro c h
  refine ⟨machine 0 (magicBits ++ c.1.flatMap HeaderToken.bits ++ c.2), ?_, ?_, rfl⟩ <;> fin_cases h <;> decide +kernel

theorem witness_HeaderRoundTrip : ∃ (s₁ s₂ : State) (tree : CodeTree) (bits rest : Bits),
    s₁.treeInv ∧ s₁.status.treeValid = true ∧ s₁.tree = some tree ∧ (after .hcWrite s₁).snk = s₁.snk ++ bits ∧
      s₂.build.hdrMagic = s₁.build.hdrMagic ∧ s₂.unread = bits ++ rest :=
  ⟨tabled, machine 0 (magicBits ++ aabTree.tokens ++ [true]), aabTree, magicBits ++ aabTree.tokens, [true],
    tabled_treeInv,
    rfl, tabled_tree, by decide +kernel, rfl, rfl⟩

/-! ### Witnesses: compressing and decompressing -/

/-- The input of n symbols 'a', each of 8 bits, or of 9 and then one value out of range. -/
def manyA (n : Nat) : State := machine 0 (repeated 8 97 n)
def manyAThenForeign (n : Nat) : State := machine 1 (repeated 9 97 n ++ fld 9 0x1FF)

/-- The tree of an input with one symbol 'a' or more (section 2.3, the row a = 100). -/
def aTree : CodeTree := .node (.leaf 256) (.leaf 97)

/-- Eight symbols 'a' make 62 bits, less than 64. -/
theorem witness_CompressWritesTheArchive_smaller :
    (manyA 8).src.rewindable = true ∧ (manyA 8).src.pos = 0 ∧ (∀ v ∈ (manyA 8).inputSymbols, v < 256) ∧
    (manyA 8).inputSymbols.length = 8 ∧
    (storeTree ((manyA 8).counted (manyA 8).inputSymbols (manyA 8).src.bits.length)).tree = some aTree ∧
    aTree.archiveBits (manyA 8).inputSymbols < 8 * (manyA 8).inputSymbols.length :=
  ⟨rfl, rfl, by decide +kernel, by decide +kernel, by decide +kernel, by decide +kernel⟩

/-- Seven make 61, more than 56. -/
theorem witness_CompressWritesTheArchive_notSmaller :
    (manyA 7).src.rewindable = true ∧ (manyA 7).src.pos = 0 ∧ (∀ v ∈ (manyA 7).inputSymbols, v < 256) ∧
    (manyA 7).inputSymbols.length = 7 ∧ 8 * (manyA 7).inputSymbols.length ≤ aTree.archiveBits (manyA 7).inputSymbols :=
  ⟨rfl, rfl, by decide +kernel, by decide +kernel, by decide +kernel⟩

theorem witness_SkippedCompressRaisesNothing :
    ∃ (s : State) (tree : CodeTree), s.src.rewindable = true ∧ s.src.pos = 0 ∧
      (inRange s.inputSymbols).length < 2 ^ 32 ∧ (outOfRange s.inputSymbols).length = 1 ∧
      (storeTree (s.counted s.inputSymbols s.src.bits.length)).tree = some tree ∧
      8 * (inRange s.inputSymbols).length ≤ tree.archiveBits s.inputSymbols :=
  ⟨manyAThenForeign 0, .leaf 256, rfl, rfl, by decide +kernel, by decide +kernel, by decide +kernel, by decide +kernel⟩

/-- With F = 1 pass 2 runs whatever the sizes are. -/
theorem witness_CompressStopsAtAnUncodableValue :
    ∃ (s : State) (pre post : List Nat) (v : Nat), s.src.rewindable = true ∧ s.src.pos = 0 ∧
      (inRange s.inputSymbols).length < 2 ^ 32 ∧ (outOfRange s.inputSymbols).length < 2 ^ 32 ∧
      s.inputSymbols = pre ++ v :: post ∧ (∀ x ∈ pre, x < 256) ∧ 256 ≤ v :=
  ⟨manyAThenForeign 8, List.replicate 8 97, [], 0x1FF, rfl, rfl, by decide +kernel, by decide +kernel,
    by decide +kernel,
    by decide, by decide⟩

theorem witness_CompressNeedsARewindableSource : ∃ s : State, s.src.rewindable = false :=
  ⟨{ machine 0 [] with src := { bits := [true], pos := 0, rewindable := false, start := 0 } }, rfl⟩

/-- A body of one symbol and the sentinel; and the one-leaf tree, whose sentinel code is empty. -/
theorem witness_DecompressWritesTheSymbols :
    (∃ (s : State) (tree : CodeTree) (body : List (BitVec 9 × Bits)) (last : Bits) (rest : Bits),
      tree.nodeCount ≤ 513 ∧ (∀ p ∈ body, p ∈ tree.codes ∧ p.1.toNat < 256) ∧
      (256, last) ∈ tree.codes ∧ body.length = 1 ∧
      s.unread = s.magicBits ++ tree.tokens ++ body.flatMap Prod.snd ++ last ++ rest) ∧
    ∃ (s : State) (tree : CodeTree) (rest : Bits), tree.nodeCount ≤ 513 ∧ (256, []) ∈ tree.codes ∧
    s.unread = s.magicBits ++ tree.tokens ++ [] ++ [] ++ rest :=
  ⟨⟨machine 0 (magicBits ++ aabTree.tokens ++ [true, false] ++ [true, true] ++ [true]), aabTree, [(98, [true, false])],
      [true, true], [true], by decide, by decide, by decide, rfl, rfl⟩,
    ⟨machine 0 (magicBits ++ (CodeTree.leaf 256).tokens ++ [] ++ [] ++ [true, true, true]), .leaf 256, [true, true,
    true],
      by decide, by decide, rfl⟩⟩

theorem witness_RootLeafIsSettledBeforeTheBody : ∀ sym ∈ [(0 : BitVec 9), 255, 256, 257, 511],
    ∃ (s : State) (rest : Bits), s.unread = s.magicBits ++ (CodeTree.leaf sym).tokens ++ rest :=
  fun sym _ => ⟨machine 0 (magicBits ++ (CodeTree.leaf sym).tokens ++ [true]), [true], rfl⟩

theorem witness_LeafAboveSentinelIsInvalidSymbol :
    ∃ (s : State) (tree : CodeTree) (body : List (BitVec 9 × Bits)) (bad : BitVec 9 × Bits) (rest : Bits),
      tree.nodeCount ≤ 513 ∧ (∀ p ∈ body, p ∈ tree.codes ∧ p.1.toNat < 256) ∧
      bad ∈ tree.codes ∧ 256 < bad.1.toNat ∧ bad.2 ≠ [] ∧ body.length < 2 ^ 61 ∧
      s.unread = s.magicBits ++ tree.tokens ++ body.flatMap Prod.snd ++ bad.2 ++ rest :=
  ⟨machine 0 (magicBits ++ (CodeTree.node (.leaf 257) (.leaf 97)).tokens ++ [true] ++ [false] ++ []),
    .node (.leaf 257) (.leaf 97), [(97, [true])], (257, [false]), [], by decide, by decide, by decide, by decide,
    by decide,
    by decide, rfl⟩

theorem witness_TruncatedBodyIsUnexpectedEnd : ∀ part ∈ [[], [true]],
    ∃ (s : State) (tree : CodeTree) (body : List (BitVec 9 × Bits)) (next : BitVec 9 × Bits), tree.nodeCount ≤ 513 ∧
    (∀ p ∈ body, p ∈ tree.codes ∧ p.1.toNat < 256) ∧ next ∈ tree.codes ∧
      part <+: next.2 ∧ part ≠ next.2 ∧ body.length < 2 ^ 61 ∧
      s.unread = s.magicBits ++ tree.tokens ++ body.flatMap Prod.snd ++ part := by
  intro part h
  refine ⟨machine 0 (magicBits ++ aabTree.tokens ++ [false] ++ part), aabTree, [(97, [false])], (256, [true, true]),
    by decide, by decide, by decide, ?_⟩
  fin_cases h <;> exact ⟨by decide, by decide, by decide, rfl⟩

/-- A body of n symbols 'a' and one more. -/
theorem body_of_length (n : Nat) : ∃ (s : State) (body : List (BitVec 9 × Bits)),
    body.length = n ∧ (∀ p ∈ body, p = (97, [false])) ∧
      s.unread = s.magicBits ++ (CodeTree.node (.leaf 97) (.leaf 256)).tokens ++ body.flatMap Prod.snd ++ [false] ++ [] :=
  ⟨machine 0 (magicBits ++ (CodeTree.node (.leaf 97) (.leaf 256)).tokens ++
      (List.replicate n ((97, [false]) : BitVec 9 × Bits)).flatMap Prod.snd ++ [false] ++ []),
    List.replicate n (97, [false]), List.length_replicate, by simp, rfl⟩

theorem witness_DecompressStopsAtCountOverflow :
    ∃ (s : State) (tree : CodeTree) (body : List (BitVec 9 × Bits)) (next : BitVec 9 × Bits) (rest : Bits),
      tree.nodeCount ≤ 513 ∧ (∀ p ∈ body, p ∈ tree.codes ∧ p.1.toNat < 256) ∧ next ∈ tree.codes ∧ next.1.toNat < 256 ∧
      next.2 ≠ [] ∧ body.length = 2 ^ 61 - 1 ∧
      s.unread = s.magicBits ++ tree.tokens ++ body.flatMap Prod.snd ++ next.2 ++ rest := by
  obtain ⟨s, body, hl, hb, hu⟩ := body_of_length (2 ^ 61 - 1)
  exact ⟨s, .node (.leaf 97) (.leaf 256), body, (97, [false]), [], by decide, fun p hp => by rw [hb p hp]; decide, by decide,
    by decide, by decide, hl, hu⟩

theorem unread_machine (extra : Fin 9) (b : Bits) : (machine extra b).unread = b := rfl

/-- "aab" (section 2.5). -/
def aab : State := machine 0 (bytesToBits [97, 97, 98])

theorem witness_CompressDecompressRoundTrip :
    ∃ (s₁ s₂ t₁ : State) (bytes : List (BitVec 8)) (archive trailing : Bits),
      s₁.build.symInW = 8 ∧ s₁.src.bits = bytesToBits bytes ∧ s₁.src.pos = 0 ∧ exec .encCompressF s₁ = .next t₁ ∧
      t₁.status.err = false ∧ t₁.snk = s₁.snk ++ archive ∧ s₂.build.hdrMagic = s₁.build.hdrMagic ∧
      s₂.unread = archive ++ trailing :=
  ⟨aab, machine 0 ((after .encCompressF aab).snk ++ [true]), after .encCompressF aab, [97, 97, 98],
    (after .encCompressF aab).snk, [true], rfl, rfl, rfl, rfl, by decide +kernel, (List.nil_append _).symm, rfl,
    unread_machine 0 _⟩

/-! ### Witnesses: all commands -/

/-- For NoCommandTouchesOperandsOrSourceBits, PortsAreUsedOnlyByTheirCommands and MemoriesKeepTheirContents. -/
theorem witness_commands_complete : ∀ i : Instr, ∃ s t : State, exec i s = .next t := by
  intro i
  exact ⟨machine 0 [], _, exec_eq_runCommand i _⟩

/-- An error of every command ErrorsLeaveWhatTheTableSays names. -/
theorem witness_ErrorsLeaveWhatTheTableSays : ∀ i ∈ [Instr.fcGet, .fcAdd, .fcSet, .ctGet, .ctMake, .hcWrite, .hcRead,
      .decDecompress],
    ∃ s t : State, s.status.busy = true ∧ s.status.err = false ∧ exec i s = .next t ∧ t.status.err = true := by
  intro i h
  refine ⟨{ running i with arg0 := 257 }, after i { running i with arg0 := 257 }, rfl, rfl, ?_⟩
  fin_cases h <;> exact ⟨rfl, by decide +kernel⟩

theorem witness_OutputGrowsToTheFinalOutput :
    ∃ s t : State, s.status.busy = true ∧ exec .hcWrite s = .next t ∧ t.status.busy = false :=
  ⟨accept 0x30 tabled, after .hcWrite (accept 0x30 tabled), rfl, rfl, by decide +kernel⟩

theorem witness_EveryCommandCompletes : ∃ s : State, s.status.treeValid = true ∧ s.treeInv := ⟨tabled, rfl,
  tabled_treeInv⟩

theorem witness_StepKeepsTheInvariants : ∃ s t : State, s.status.tableValid = true ∧
    (s.statusInv ∧ s.treeInv ∧ s.tableInv) ∧ step s = .next t :=
  ⟨tabled, tabled, rfl, ⟨tabled_statusInv, tabled_treeInv, tabled_tableInv⟩, rfl⟩

theorem witness_StepKeepsTheBounds : ∃ s t : State, s.boundsInv ∧ step s = .next t :=
  ⟨tabled, tabled, ⟨by decide, by decide, by decide⟩, rfl⟩

end Sys2Proof.Tests
end

section
/-! The codes of a tree as the code table holds them (R47, R48, R221): what an entry spells, which entries are present,
and why no code begins another. -/

namespace Sys2Proof.Machine

/-! ### The codes of a tree -/

/-- A path above a tree stands in front of each of its codes. -/
theorem codesBelow_eq_map (tree : CodeTree) (path : Bits) :
    tree.codesBelow path = tree.codes.map fun p => (p.1, path ++ p.2) := by
  induction tree generalizing path with
  | leaf sym => simp [CodeTree.codes, CodeTree.codesBelow]
  | node l r ihl ihr =>
    simp only [CodeTree.codes, CodeTree.codesBelow, List.nil_append]
    rw [ihl (path ++ [false]), ihr (path ++ [true]), ihl [false], ihr [true]]
    simp [Function.comp_def]

@[simp] theorem codes_leaf (sym : BitVec 9) : (CodeTree.leaf sym).codes = [(sym, [])] := rfl

/-- The codes of an inner node: 0 before those of its left child, 1 before those of its right child. -/
@[simp] theorem codes_node (l r : CodeTree) :
    (CodeTree.node l r).codes =
      l.codes.map (fun p => (p.1, false :: p.2)) ++ r.codes.map fun p => (p.1, true :: p.2) := by
  change l.codesBelow [false] ++ r.codesBelow [true] = _
  rw [codesBelow_eq_map, codesBelow_eq_map]
  rfl

/-- Two leaves with different symbols part at some node, so neither one's code begins the other's (R48). -/
theorem codes_prefixFree {tree : CodeTree} {a b : BitVec 9} {p q : Bits} (hp : (a, p) ∈ tree.codes)
    (hq : (b, q) ∈ tree.codes) (hne : a ≠ b) : ¬ p <+: q := by
  induction tree generalizing p q with
  | leaf sym =>
    simp only [codes_leaf, List.mem_singleton, Prod.mk.injEq] at hp hq
    exact absurd (hp.1.trans hq.1.symm) hne
  | node l r ihl ihr =>
    simp only [codes_node, List.mem_append, List.mem_map, Prod.mk.injEq] at hp hq
    rcases hp with ⟨⟨_, p⟩, hp, rfl, rfl⟩ | ⟨⟨_, p⟩, hp, rfl, rfl⟩ <;>
      rcases hq with ⟨⟨_, q⟩, hq, rfl, rfl⟩ | ⟨⟨_, q⟩, hq, rfl, rfl⟩ <;> rw [List.cons_prefix_cons]
    · exact fun h => ihl hp hq h.2
    · exact fun h => Bool.false_ne_true h.1
    · exact fun h => Bool.false_ne_true h.1.symm
    · exact fun h => ihr hp hq h.2

/-- A code is no longer than the walk that found the tree is deep (R222). -/
theorem code_length_lt_of_treeOf {node : Vector Node 513} {fuel : Nat} {i : Slot} {tree : CodeTree}
    (h : treeOf node fuel i = some tree) {p : BitVec 9 × Bits} (hp : p ∈ tree.codes) : p.2.length < fuel := by
  induction fuel generalizing i tree p with
  | zero => cases h
  | succ fuel ih =>
    unfold treeOf at h
    split at h
    · cases h
      rw [codes_leaf, List.mem_singleton] at hp
      simp [hp]
    · split at h
      · rename_i l r hl hr
        cases h
        simp only [codes_node, List.mem_append, List.mem_map] at hp
        rcases hp with ⟨p, hp, rfl⟩ | ⟨p, hp, rfl⟩
        · exact Nat.succ_lt_succ (ih hl hp)
        · exact Nat.succ_lt_succ (ih hr hp)
      · cases h

/-! ### The entries of the code table -/

theorem testBit_pathToNat (path : Bits) (j : Nat) : (pathToNat path).testBit j = path.getD j false := by
  induction path generalizing j with
  | nil => simp [pathToNat]
  | cons b path ih =>
    cases j with
    | zero => cases b <;> simp [pathToNat, Nat.testBit_zero, Nat.add_mod]
    | succ j =>
      have half : pathToNat (b :: path) / 2 = pathToNat path := by
        have := Bool.toNat_lt b
        rw [pathToNat]
        omega
      rw [Nat.testBit_succ, half, ih, List.getD_cons_succ]

/-- The entry of a leaf holds its path as its code, for every path within MAX_CODE_LEN (R221, R222). -/
theorem codePath_entryOfPath {path : Bits} (h : path.length ≤ 256) : codePath (entryOfPath path) = path := by
  have len : (entryOfPath path).len.toNat = path.length := Nat.mod_eq_of_lt (by omega)
  refine List.ext_getElem (by simp [codePath, len]) fun j hj hj' => ?_
  have hj256 : j < 256 := by omega
  simp [codePath, entryOfPath, BitVec.getLsbD_ofNat, hj256, testBit_pathToNat, hj', -BitVec.getLsbD_eq_getElem]

theorem mem_codes_of_codeOf {tree : CodeTree} {sym : BitVec 9} {path : Bits} (h : tree.codeOf sym = some path) :
    (sym, path) ∈ tree.codes := by
  obtain ⟨p, hfind, rfl⟩ := Option.map_eq_some_iff.1 h
  have hsym : p.1 = sym := by simpa using List.find?_some hfind
  exact hsym ▸ List.mem_of_find?_eq_some hfind

theorem codeOf_isSome {tree : CodeTree} {sym : BitVec 9} : (tree.codeOf sym).isSome ↔ sym ∈ tree.symbols := by
  simp [CodeTree.codeOf, CodeTree.symbols]

theorem table_getElem (tree : CodeTree) (a : Fin 257) :
    tree.table[a.val] = ((tree.codeOf (BitVec.ofNat 9 a.val)).map entryOfPath).getD noCode := by
  rw [CodeTree.table, Vector.getElem_ofFn]
  cases tree.codeOf (BitVec.ofNat 9 a.val) <;> rfl

/-- The table has an entry for exactly the symbols at leaves (R48). -/
theorem table_present (tree : CodeTree) (a : Fin 257) :
    tree.table[a.val].present = true ↔ BitVec.ofNat 9 a.val ∈ tree.symbols := by
  rw [table_getElem, ← codeOf_isSome]
  cases tree.codeOf (BitVec.ofNat 9 a.val) <;> simp [noCode, entryOfPath]

/-- A present entry spells the path to a leaf with its symbol (R48), in a tree no deeper than MAX_CODE_LEN. -/
theorem mem_codes_of_table_present {tree : CodeTree} (hlen : ∀ p ∈ tree.codes, p.2.length ≤ 256) {a : Fin 257}
    (h : tree.table[a.val].present = true) : (BitVec.ofNat 9 a.val, codePath tree.table[a.val]) ∈ tree.codes := by
  obtain ⟨path, hpath⟩ := Option.isSome_iff_exists.1 (codeOf_isSome.2 ((table_present tree a).1 h))
  have hmem := mem_codes_of_codeOf hpath
  have hcode : codePath tree.table[a.val] = path := by
    rw [table_getElem, hpath]
    exact codePath_entryOfPath (hlen _ hmem)
  rwa [hcode]

/-- CODE entries 0 to 256 stand for different symbols. -/
theorem codeSymbol_ne {a b : Fin 257} (h : a ≠ b) : BitVec.ofNat 9 a.val ≠ BitVec.ofNat 9 b.val := by
  intro heq
  have := congrArg BitVec.toNat heq
  simp only [BitVec.toNat_ofNat] at this
  omega

/-! ### What TABLE_VALID stands for -/

/-- While TABLE_VALID is 1, CODE is the table of the one tree in the node memory (R48). -/
theorem code_eq_table {s : State} {tree : CodeTree} (hinv : s.tableInv) (hvalid : s.status.tableValid = true)
    (htree : s.tree = some tree) : s.code = tree.table := by
  obtain ⟨-, t, ht, -, -, hcode⟩ := hinv hvalid
  obtain rfl : t = tree := Option.some.inj (ht.symm.trans htree)
  exact hcode

/-- No code of the tree in the node memory is longer than MAX_CODE_LEN = 256 (R222). -/
theorem code_length_le_of_tree {s : State} {tree : CodeTree} (h : s.tree = some tree) :
    ∀ p ∈ tree.codes, p.2.length ≤ 256 := by
  intro p hp
  have hlt : p.2.length < walkFuel := code_length_lt_of_treeOf h hp
  unfold walkFuel at hlt
  omega

/-- Settles O35: CODE is the tree's table, whose present entries spell paths to leaves with different symbols. -/
theorem codesArePathsAndPrefixFree : Obligations.CodesArePathsAndPrefixFree := by
  intro s tree hinv hvalid htree a
  rw [code_eq_table hinv hvalid htree]
  have hlen := code_length_le_of_tree htree
  refine ⟨table_present tree a, mem_codes_of_table_present hlen, fun b hab ha hb => ?_⟩
  exact codes_prefixFree (mem_codes_of_table_present hlen ha) (mem_codes_of_table_present hlen hb)
    (codeSymbol_ne hab)

end Sys2Proof.Machine
end

section
/-! The fields that the ports carry, bit by bit (R80, R83): a field's value as the sum of its weighted bits, and the
bits that a write of a value appends. -/

namespace Sys2Proof.Machine

/-- A field's first bit has the greatest weight (R80). -/
theorem bitsToNat_eq_sum (b : Bits) :
    bitsToNat b = ((List.range b.length).map fun i => (b.getD i false).toNat * 2 ^ (b.length - 1 - i)).sum := by
  induction b with
  | nil => rfl
  | cons x b ih =>
    rw [bitsToNat_cons, ih]
    simp [List.range_succ_eq_map, Function.comp_def, Nat.sub_sub, Nat.add_comm 1]

/-- SRC's next n bits, each with its weight, while n bits are left (R80). -/
theorem srcField_eq_sum {n : Nat} {s : State} (h : n ≤ srcLeft s) :
    srcField n s =
      ((List.range n).map fun i => (s.src.bits.getD (s.src.pos + i) false).toNat * 2 ^ (n - 1 - i)).sum := by
  have hlen : ((s.src.bits.drop s.src.pos).take n).length = n :=
    List.length_take_of_le (by rwa [List.length_drop])
  rw [srcField, bitsToNat_eq_sum, hlen]
  refine congrArg List.sum (List.map_congr_left fun i hi => ?_)
  simp [List.getElem?_take_of_lt (List.mem_range.1 hi)]

/-- Bits n - 1 down to 0 of v (R83). -/
theorem natToBits_eq_map (n v : Nat) : natToBits n v = (List.range n).map fun j => v.testBit (n - 1 - j) := by
  induction n with
  | zero => rfl
  | succ n ih =>
    rw [natToBits, ih]
    simp [List.range_succ_eq_map, Function.comp_def, Nat.sub_sub, Nat.add_comm 1]

/-- Settles O17: the value of the n bits read is their weighted sum, and EOS consumes the bits that are left. -/
theorem srcReadTakesTheNextField : Obligations.SrcReadTakesTheNextField := by
  intro n s _ _
  split
  case isTrue h =>
    rw [srcRead_value h, srcField_eq_sum h]
    rfl
  case isFalse h => exact srcRead_eos (Nat.not_le.1 h)

/-- Settles O18: the bits a write appends are bits n - 1 down to 0 of the value. -/
theorem snkWriteAppendsTheField : Obligations.SnkWriteAppendsTheField := by
  intro n v s _ _ _
  rw [snkWrite_run, natToBits_eq_map]
  rfl

end Sys2Proof.Machine
end

section
/-! Command words and their fields (R130), and the one word that the decoder reads as each command (R135, R136). -/

namespace Sys2Proof.Machine

/-! ### Words and fields -/

theorem ofBool_getLsbD_eq_extractLsb' (w : Word) (j : Nat) : BitVec.ofBool (w.getLsbD j) = w.extractLsb' j 1 := by
  ext k hk
  obtain rfl : k = 0 := by omega
  simp

/-- RES, F and OP are all of a word's bits (R130). -/
@[simp] theorem cmdWordOf_cmdFields (w : Word) : cmdWordOf (cmdFields w) = w :=
  calc cmdWordOf (cmdFields w)
    _ = w.extractLsb' 9 23 ++ w.extractLsb' 8 1 ++ w.extractLsb' 0 8 := by
      rw [← ofBool_getLsbD_eq_extractLsb', cmdWordOf, cmdFields]
    _ = w.extractLsb' 8 24 ++ w.extractLsb' 0 8 :=
      congrArg (· ++ w.extractLsb' 0 8)
        (BitVec.extractLsb'_append_extractLsb'_eq_extractLsb' (start₁ := 8) (len₁ := 1) rfl)
    _ = w := BitVec.extractLsb'_append_extractLsb'

/-- A word with F = 0 and RES = 0 is its OP, extended by zeros (R130). -/
theorem cmdWordOf_op (op : BitVec 8) : cmdWordOf { res := 0, force := false, op := op } = op.setWidth 32 :=
  calc cmdWordOf { res := 0, force := false, op := op }
    _ = 0#24 ++ op := congrArg (· ++ op) (BitVec.zero_append_zero (v := 23) (w := 1))
    _ = op.setWidth 32 := (BitVec.setWidth_eq_append (by decide)).symm

theorem forceOf_eq_false {i : Instr} (h : i ≠ .encCompressF) : forceOf i = false := by
  cases i
  case encCompressF => exact absurd rfl h
  all_goals rfl

/-! ### The decoder -/

/-- OP names a command by that command's opcode (R134). -/
theorem opcodeOf_of_commandOfOp {op : BitVec 8} {force : Bool} {i : Instr} (h : commandOfOp op force = some i) :
    op = opcodeOf i := by
  apply BitVec.eq_of_toNat_eq
  unfold commandOfOp at h
  split at h
  case h_14 => cases h
  all_goals
    rename_i hop
    cases h
    rw [hop]
  case h_12 => cases force <;> rfl
  all_goals rfl

/-- F names ENC_COMPRESS.F where F may be 1, and no command where it may not (R135, R136). -/
theorem forceOf_of_commandOfOp {c : CmdWord} {i : Instr} (h : commandOfOp c.op c.force = some i)
    (hforce : c.forceAllowed = true) : c.force = forceOf i := by
  obtain ⟨res, force, op⟩ := c
  cases force
  case false =>
    refine (forceOf_eq_false ?_).symm
    rintro rfl
    obtain rfl := opcodeOf_of_commandOfOp h
    cases h
  case true =>
    obtain rfl : op = 0x40 := eq_of_beq hforce
    cases h
    rfl

/-- What decodes is a command named by OP and F in a word that passes the checks on RES and F (R136). -/
theorem decode_eq_ok {w : Word} {i : Instr} (h : decode w = .ok i) :
    commandOfOp (cmdFields w).op (cmdFields w).force = some i ∧ (cmdFields w).res = 0 ∧
      (cmdFields w).forceAllowed = true := by
  simp only [decode] at h
  split at h
  case h_1 => cases h
  case h_2 j hj =>
    split_ifs at h with hres hforce
    cases h
    exact ⟨hj, eq_of_beq hres, hforce⟩

/-- The decoder reads back the command that was encoded (R135). -/
@[simp] theorem decode_encode (i : Instr) : decode (encode i) = .ok i := by
  cases i <;> rfl

/-- No word but its encoding decodes to a command (R135). -/
theorem eq_encode_of_decode {w : Word} {i : Instr} (h : decode w = .ok i) : w = encode i := by
  obtain ⟨hop, hres, hforce⟩ := decode_eq_ok h
  rw [encode, ← hres, ← forceOf_of_commandOfOp hop hforce, ← opcodeOf_of_commandOfOp hop]
  exact (cmdWordOf_cmdFields w).symm

/-- Settles O2: OP, F and RES of a word that decodes are those of its command, and the fields make up the word. -/
theorem eachCommandHasExactlyItsWord : Obligations.EachCommandHasExactlyItsWord := by
  refine ⟨rfl, rfl, fun i hi => ?_, fun w i => ⟨eq_encode_of_decode, ?_⟩⟩
  · rw [encode, forceOf_eq_false hi, cmdWordOf_op]
  · rintro rfl
    exact decode_encode i

end Sys2Proof.Machine
end

section
/-! What the sequencer does with a host's write (R98, R162), and how it completes a command (R163). -/

namespace Sys2Proof.Machine

/-! ### The registers that an access reaches -/

/-- There is a register at every offset of the window (R31). -/
theorem regAt_of_lt {off : Nat} (h : off < 0x40) : ∃ r, regAt off = some r := by
  have hword : off / 4 < 16 := by omega
  unfold regAt
  generalize off / 4 = n at hword ⊢
  interval_cases n <;> exact ⟨_, rfl⟩

/-- An aligned 32-bit access of the window moves a register (R95). -/
theorem accessedReg_of_aligned {off : Nat} (haligned : off % 4 = 0) (hwindow : off < 0x40) :
    ∃ r, accessedReg off 4 = some r := by
  rw [accessedReg, if_pos ⟨rfl, haligned⟩]
  exact regAt_of_lt hwindow

/-! ### A host's write -/

/-- Out of reset a write of a register reaches that register, with the rest of the schedule still to come. -/
theorem step_of_hostWrite {s : State} {rest : List Event} {off size : Nat} {v : Word} {r : Reg}
    (hagenda : s.agenda = .hostWrite off size v :: rest) (hreset : s.resetLine = false)
    (hreg : accessedReg off size = some r) : step s = hostWriteReg r v { s with agenda := rest } := by
  simp [step_of_event hagenda, perform, hostAccess, hreset, hreg]

/-- R98: a write has no effect on a busy core. -/
theorem writeEffect_of_busy {s : State} (h : s.status.busy = true) (r : Reg) (v : Word) : writeEffect r v s = s :=
  if_pos h

/-- A busy core takes a write and drops it, whichever the register (R98, R162). -/
theorem hostWriteReg_of_busy {s : State} (h : s.status.busy = true) (r : Reg) (v : Word) :
    hostWriteReg r v s = .next { s with bus := .written } := by
  rw [hostWriteReg, if_pos (keepsDuties_of_busy h r v), writeReg, writeEffect_of_busy h]

/-- Settles O8: the write reaches a register, and a busy core drops it. -/
theorem busyWritesAreDropped : Obligations.BusyWritesAreDropped := by
  intro s rest off v hagenda hreset hbusy haligned hwindow
  obtain ⟨r, hreg⟩ := accessedReg_of_aligned haligned hwindow
  rw [step_of_hostWrite hagenda hreset hreg]
  exact hostWriteReg_of_busy (s := { s with agenda := rest }) hbusy r v

/-! ### Completion -/

/-- Settles O15: the fields that the statement sets are those that `done` and its flags set. -/
theorem doneCompletesWithoutError : Obligations.DoneCompletesWithoutError := by
  intro s
  rw [done, doneFlags]

end Sys2Proof.Machine
end

section
/-! The frequency counter's commands on one entry (R182 to R184). All three read their symbol from ARG0 before anything
else, so one lemma says how each of them ends when it names no entry of FREQ. -/

namespace Sys2Proof.Machine

/-! ### How a command's rule ends it -/

/-- A command whose rule ends well leaves what the rule left, and is done (R163). -/
theorem exec_of_ok {i : Instr} {s : State} {r : Run} (h : (ruleOf i).run ⟨s, none⟩ = .ok () r) :
    exec i s = .next (done r.st) :=
  (exec_eq_runCommand i s).trans (runCommand_ok h)

/-- A command whose rule raises before it changes anything ends in that error (R330). -/
theorem exec_endsInError {i : Instr} {s : State} {e : ErrKind} {info : Word}
    (h : (ruleOf i).run ⟨s, none⟩ = .error (.raised e info) ⟨s, none⟩) :
    ∃ t, exec i s = .next t ∧ EndsInError e info s t :=
  ⟨_, (exec_eq_runCommand i s).trans (runCommand_raised h), endsInError_endInError e info s⟩

/-- A command that reads its symbol first checks it first: InvalidSymbol with ERRINFO = ARG0 (R335). -/
theorem exec_invalidSymbol {i : Instr} {s : State} {f : Fin 256 → Cmd Unit} (hrule : ruleOf i = symbolOperand >>= f)
    (h : 256 ≤ s.arg0.toNat) : ∃ t, exec i s = .next t ∧ EndsInError .invalidSymbol s.arg0 s t :=
  exec_endsInError (hrule ▸ bind_of_error (symbolOperand_error h))

/-! ### The rules on an entry of FREQ -/

theorem eq_countMax_iff {v : Word} : v = countMax ↔ v.toNat = 2 ^ 32 - 1 := BitVec.toNat_inj.symm

theorem ruleFcGet_run {s : State} (h : s.arg0.toNat < 256) :
    ruleFcGet.run ⟨s, none⟩ = .ok () ⟨{ s with result0 := s.freq[s.arg0.toNat] }, none⟩ :=
  bind_of_ok (symbolOperand_ok h)

theorem ruleFcSet_run {s : State} (h : s.arg0.toNat < 256) :
    ruleFcSet.run ⟨s, none⟩ = .ok () ⟨setFreq ⟨s.arg0.toNat, h⟩ s.arg1 s, none⟩ :=
  bind_of_ok (symbolOperand_ok h)

/-- FC_ADD passes on to the entry's check once its symbol is one (R183). -/
theorem ruleFcAdd_run {s : State} (h : s.arg0.toNat < 256) :
    ruleFcAdd.run ⟨s, none⟩ =
      if s.freq[s.arg0.toNat] = countMax then .error (.raised .countOverflow 0) ⟨s, none⟩
      else .ok () ⟨setFreq ⟨s.arg0.toNat, h⟩ (s.freq[s.arg0.toNat] + 1) s, none⟩ := by
  rw [ruleFcAdd, bind_of_ok (symbolOperand_ok h), bind_of_ok (getState_run _)]
  split_ifs <;> rfl

/-! ### The obligations -/

/-- Settles O21: FC_GET's rule is one read of FREQ after the check of ARG0. -/
theorem fcGetReadsOneEntry : Obligations.FcGetReadsOneEntry :=
  ⟨rfl, fun _ => ⟨fun h => exec_of_ok (i := .fcGet) (ruleFcGet_run h), exec_invalidSymbol rfl⟩⟩

/-- Settles O22: the entry is checked after ARG0, and only an entry with room is written. -/
theorem fcAddIncrementsOneEntry : Obligations.FcAddIncrementsOneEntry := by
  refine ⟨rfl, fun s => ⟨fun h hroom => ?_, fun h hfull => ?_, exec_invalidSymbol rfl⟩⟩
  · have hne : s.freq[s.arg0.toNat] ≠ countMax := fun heq => hroom.ne (eq_countMax_iff.1 heq)
    exact exec_of_ok (i := .fcAdd) ((ruleFcAdd_run h).trans (if_neg hne))
  · exact exec_endsInError (i := .fcAdd) ((ruleFcAdd_run h).trans (if_pos (eq_countMax_iff.2 hfull)))

/-- Settles O23: FC_SET's rule is one write of ARG1 to FREQ after the check of ARG0. -/
theorem fcSetStoresOneEntry : Obligations.FcSetStoresOneEntry :=
  ⟨rfl, fun _ => ⟨fun h => exec_of_ok (i := .fcSet) (ruleFcSet_run h), exec_invalidSymbol rfl⟩⟩

end Sys2Proof.Machine
end

section
/-! The leaves that seeding creates (R201): the builder starts empty and takes one leaf after another, so a leaf's slot is
its place in the order of creation. -/

namespace Sys2Proof.Machine

/-! ### Creating a node -/

theorem slotOf_val {n : Nat} (h : n < 513) : (slotOf n).val = n := Nat.mod_eq_of_lt h

@[simp] theorem slotOf_val_self (i : Slot) : slotOf i.val = i := Fin.ext (slotOf_val i.isLt)

@[simp] theorem pushNode_cands (x : Node) (b : Builder) : (pushNode x b).cands = b.cands ++ [slotOf b.next] := rfl
@[simp] theorem pushNode_next (x : Node) (b : Builder) : (pushNode x b).next = b.next + 1 := rfl

@[simp] theorem pushNode_node_new (x : Node) (b : Builder) : (pushNode x b).node[(slotOf b.next).val] = x :=
  Vector.getElem_set_self _

/-- The slots in use keep their nodes. -/
theorem pushNode_node_old {b : Builder} (hroom : b.next < 513) (x : Node) {i : Slot} (h : i.val < b.next) :
    (pushNode x b).node[i.val] = b.node[i.val] :=
  Vector.getElem_set_ne (slotOf b.next).isLt i.isLt (by rw [slotOf_val hroom]; exact h.ne')

/-! ### A builder with leaves only -/

/-- A leaf that is to be created: its symbol and its weight. -/
abbrev LeafSpec := BitVec 9 × BitVec 41

def LeafSpec.node (x : LeafSpec) : Node := .leaf x.1 x.2

/-- The builder after the leaves xs were created, one after the other, from slot 0 on. -/
def pushLeaves (node : Vector Node 513) (xs : List LeafSpec) : Builder :=
  xs.foldl (fun b x => pushNode x.node b) { node, cands := [], next := 0 }

theorem pushLeaves_concat (node : Vector Node 513) (xs : List LeafSpec) (x : LeafSpec) :
    pushLeaves node (xs ++ [x]) = pushNode x.node (pushLeaves node xs) := List.foldl_concat ..

@[simp] theorem pushLeaves_next (node : Vector Node 513) (xs : List LeafSpec) :
    (pushLeaves node xs).next = xs.length := by
  induction xs using List.reverseRecOn with
  | nil => rfl
  | append_singleton xs x ih => simp [pushLeaves_concat, ih]

@[simp] theorem pushLeaves_cands (node : Vector Node 513) (xs : List LeafSpec) :
    (pushLeaves node xs).cands = (List.range xs.length).map slotOf := by
  induction xs using List.reverseRecOn with
  | nil => rfl
  | append_singleton xs x ih => simp [pushLeaves_concat, ih, List.range_succ]

/-- Each leaf is in the slot of its place in the order of creation (R201). -/
theorem pushLeaves_node (node : Vector Node 513) {xs : List LeafSpec} (hroom : xs.length ≤ 513) {k : Nat}
    (hk : k < xs.length) : (pushLeaves node xs).node[(slotOf k).val] = xs[k].node := by
  induction xs using List.reverseRecOn with
  | nil => cases hk
  | append_singleton xs x ih =>
    rw [List.length_append, List.length_singleton] at hroom hk
    rw [pushLeaves_concat]
    rcases Nat.lt_succ_iff_lt_or_eq.1 hk with hlt | rfl
    · rw [pushNode_node_old (by simpa using hroom) _ (by simpa [slotOf_val (by omega : k < 513)] using hlt),
        ih (by omega) hlt, List.getElem_append_left hlt]
    · have hnew := pushNode_node_new x.node (pushLeaves node xs)
      simpa using hnew

/-! ### The leaves of a table of counts -/

/-- The symbols with a non-zero count, in ascending order (R201). -/
def countedSymbols (freq : Vector Word 256) : List (Fin 256) := symbols.filter fun i => freq[i.val] ≠ 0

theorem countedSymbols_length_le (freq : Vector Word 256) : (countedSymbols freq).length ≤ 256 :=
  (List.length_filter_le _ _).trans_eq List.length_finRange

/-- The leaves that seeding creates, in order (R201). -/
def seedLeaves (freq : Vector Word 256) : List LeafSpec :=
  (countedSymbols freq).map (fun i => (BitVec.ofNat 9 i.val, freq[i.val].setWidth 41)) ++ [(256, 1)]

theorem seedLeaves_length (freq : Vector Word 256) : (seedLeaves freq).length = (countedSymbols freq).length + 1 := by
  simp [seedLeaves]

theorem seedLeaves_length_le (freq : Vector Word 256) : (seedLeaves freq).length ≤ 257 := by
  rw [seedLeaves_length]
  exact Nat.succ_le_succ (countedSymbols_length_le freq)

/-- `seed()` creates these leaves and no other node. -/
theorem seed_eq_pushLeaves (freq : Vector Word 256) (node : Vector Node 513) :
    seed freq node = pushLeaves node (seedLeaves freq) := by
  rw [seedLeaves, pushLeaves_concat, pushLeaves, List.foldl_map, countedSymbols, List.foldl_filter, seed]
  refine congrArg (fun f => pushNode _ (List.foldl f _ symbols)) (funext₂ fun b i => ?_)
  by_cases h : freq[i.val] = 0 <;> simp [seedSymbol, h, LeafSpec.node]

/-- NLEAVES is the number of leaves that seeding created (R201). -/
theorem storeTree_nleaves (s : State) : (storeTree s).nleaves = (seedLeaves s.freq).length := by
  change (seed s.freq s.node).next = _
  rw [seed_eq_pushLeaves, pushLeaves_next]

/-- Settles O26: seeding creates the leaves of `seedLeaves`, each in the slot of its place there. -/
theorem seedCreatesTheLeavesInOrder : Obligations.SeedCreatesTheLeavesInOrder := by
  intro s leaves b
  have hleaves : leaves = (seedLeaves s.freq).map LeafSpec.node := by
    simp [leaves, seedLeaves, countedSymbols, LeafSpec.node]
  have hlen : leaves.length = (seedLeaves s.freq).length := by rw [hleaves, List.length_map]
  have hle := seedLeaves_length_le s.freq
  have hb : b = pushLeaves s.node (seedLeaves s.freq) := seed_eq_pushLeaves s.freq s.node
  rw [hlen, hb]
  refine ⟨pushLeaves_next .., hle, pushLeaves_cands .., fun k hk => ?_, storeTree_nleaves s⟩
  rw [pushLeaves_node s.node (by omega) hk, hleaves, List.getElem?_map, List.getElem?_eq_getElem hk]
  rfl

end Sys2Proof.Machine
end

section
/-! Trees in the node memory, with the slots that they take: what `treeOf` and `slotsOf` answer for such a tree, whatever
their fuel, and that only the nodes in its slots matter. -/

namespace Sys2Proof.Machine

/-- The tree `tree` stands in the node memory at a slot, and takes the slots of a list, which is in pre-order (R46). -/
inductive TreeAt (node : Vector Node 513) : Slot → CodeTree → List Slot → Prop
  | leaf {i : Slot} {sym : BitVec 9} {w : BitVec 41} (h : node[i.val] = .leaf sym w) :
      TreeAt node i (.leaf sym) [i]
  | internal {i x y : Slot} {w : BitVec 41} {l r : CodeTree} {xs ys : List Slot}
      (h : node[i.val] = .internal x y w) (hl : TreeAt node x l xs) (hr : TreeAt node y r ys) :
      TreeAt node i (.node l r) (i :: (xs ++ ys))

theorem leafCount_pos (tree : CodeTree) : 1 ≤ tree.leafCount := by
  induction tree with
  | leaf sym => exact le_refl 1
  | node l r ihl _ => exact ihl.trans (Nat.le_add_right ..)

/-- A strictly binary tree has one internal node fewer than leaves (R205). -/
theorem nodeCount_succ (tree : CodeTree) : tree.nodeCount + 1 = 2 * tree.leafCount := by
  induction tree with
  | leaf sym => rfl
  | node l r ihl ihr =>
    rw [CodeTree.nodeCount, CodeTree.leafCount]
    omega

@[simp] theorem symbols_leaf (sym : BitVec 9) : (CodeTree.leaf sym).symbols = [sym] := rfl

@[simp] theorem symbols_node (l r : CodeTree) : (CodeTree.node l r).symbols = l.symbols ++ r.symbols := by
  simp [CodeTree.symbols, Function.comp_def]

theorem symbols_length (tree : CodeTree) : tree.symbols.length = tree.leafCount := by
  induction tree with
  | leaf sym => rfl
  | node l r ihl ihr => rw [symbols_node, List.length_append, ihl, ihr, CodeTree.leafCount]

variable {node node' : Vector Node 513} {i : Slot} {tree : CodeTree} {slots : List Slot}

theorem TreeAt.root_mem (h : TreeAt node i tree slots) : i ∈ slots := by
  cases h <;> exact List.mem_cons_self

/-- A tree stays where it is as long as the nodes in its slots do. -/
theorem TreeAt.congr (h : TreeAt node i tree slots) (hsame : ∀ j ∈ slots, node'[j.val] = node[j.val]) :
    TreeAt node' i tree slots := by
  induction h with
  | leaf h => exact .leaf ((hsame _ List.mem_cons_self).trans h)
  | internal h _ _ ihl ihr =>
    refine .internal ((hsame _ List.mem_cons_self).trans h) (ihl fun j hj => ?_) (ihr fun j hj => ?_)
    · exact hsame j (List.mem_cons_of_mem _ (List.mem_append_left _ hj))
    · exact hsame j (List.mem_cons_of_mem _ (List.mem_append_right _ hj))

/-- A walk with as much fuel as the tree has leaves finds the tree and its slots. -/
theorem TreeAt.walk (h : TreeAt node i tree slots) {fuel : Nat} (hfuel : tree.leafCount ≤ fuel) :
    treeOf node fuel i = some tree ∧ slotsOf node fuel i = slots := by
  induction h generalizing fuel with
  | leaf h =>
    obtain ⟨fuel, rfl⟩ := Nat.exists_eq_succ_of_ne_zero (Nat.pos_iff_ne_zero.1 hfuel)
    simp [treeOf, slotsOf, h]
  | @internal i x y w l r xs ys h _ _ ihl ihr =>
    have hlpos := leafCount_pos l
    have hrpos := leafCount_pos r
    rw [CodeTree.leafCount] at hfuel
    obtain ⟨fuel, rfl⟩ := Nat.exists_eq_succ_of_ne_zero (by omega : fuel ≠ 0)
    obtain ⟨htl, hsl⟩ := ihl (by omega : l.leafCount ≤ fuel)
    obtain ⟨htr, hsr⟩ := ihr (by omega : r.leafCount ≤ fuel)
    simp [treeOf, slotsOf, h, htl, htr, hsl, hsr]

/-- A path in a tree takes fewer steps than the tree has leaves (R205). -/
theorem TreeAt.code_length_lt (h : TreeAt node i tree slots) {p : BitVec 9 × Bits} (hp : p ∈ tree.codes) :
    p.2.length < tree.leafCount :=
  code_length_lt_of_treeOf (h.walk le_rfl).1 hp

end Sys2Proof.Machine
end

section
/-! The builder at work: its candidates are the roots of trees that share no slot and together take all the slots in use
(R202, R205), and every weight is exact (R204). Seeding makes it so and each merge keeps it so. -/

namespace Sys2Proof.Machine

/-- The builder with other candidates, as a merge leaves them before it makes its node (R202). -/
abbrev Builder.withCands (b : Builder) (cands : List Slot) : Builder := { b with cands }

/-! ### The forest of the candidates -/

/-- A candidate's tree and the slots it takes. -/
structure Subtree where
  root : Slot
  tree : CodeTree
  slots : List Slot

/-- The candidates are the roots of these trees, which stand in the node memory and take each slot in use once. -/
structure Builder.Holds (b : Builder) (forest : List Subtree) : Prop where
  roots : b.cands = forest.map Subtree.root
  trees : ∀ p ∈ forest, TreeAt b.node p.root p.tree p.slots
  slots : ((forest.flatMap Subtree.slots).map Fin.val).Perm (List.range b.next)

/-- The symbols at the leaves of a forest. -/
def forestSymbols (forest : List Subtree) : List (BitVec 9) := forest.flatMap fun p => p.tree.symbols

variable {b : Builder} {forest : List Subtree}

theorem Builder.Holds.slot_lt (h : b.Holds forest) {p : Subtree} (hp : p ∈ forest) {j : Slot} (hj : j ∈ p.slots) :
    j.val < b.next :=
  List.mem_range.1 (h.slots.subset (List.mem_map_of_mem (List.mem_flatMap_of_mem hp hj)))

theorem Builder.Holds.cand_lt (h : b.Holds forest) {c : Slot} (hc : c ∈ b.cands) : c.val < b.next := by
  rw [h.roots] at hc
  obtain ⟨p, hp, rfl⟩ := List.mem_map.1 hc
  exact h.slot_lt hp (h.trees p hp).root_mem

/-- A new node leaves the trees of the forest where they are. -/
theorem Builder.Holds.treeAt_pushNode (h : b.Holds forest) (hroom : b.next < 513) (x : Node) (cands : List Slot)
    {p : Subtree} (hp : p ∈ forest) : TreeAt (pushNode x (b.withCands cands)).node p.root p.tree p.slots :=
  (h.trees p hp).congr fun _ hj => pushNode_node_old (b := b.withCands cands) hroom x (h.slot_lt hp hj)

/-- A new node that becomes the root above some of the trees, or a tree of its own above none. -/
theorem Builder.Holds.addRoot {used rest : List Subtree} (h : b.Holds forest) (hroom : b.next < 513)
    (hforest : forest.Perm (used ++ rest)) {x : Node} {t : CodeTree}
    (htree : TreeAt (pushNode x (b.withCands (rest.map Subtree.root))).node (slotOf b.next) t
      (slotOf b.next :: used.flatMap Subtree.slots)) :
    (pushNode x (b.withCands (rest.map Subtree.root))).Holds
      (rest ++ [⟨slotOf b.next, t, slotOf b.next :: used.flatMap Subtree.slots⟩]) where
  roots := by simp
  trees := by
    intro p hp
    rcases List.mem_append.1 hp with hrest | hnew
    · exact h.treeAt_pushNode hroom x _ (hforest.mem_iff.2 (List.mem_append_right _ hrest))
    · rw [List.mem_singleton.1 hnew]
      exact htree
  slots := by
    have hold : (((used ++ rest).flatMap Subtree.slots).map Fin.val).Perm (List.range b.next) :=
      ((hforest.symm.flatMap_right _).map _).trans h.slots
    rw [List.perm_iff_count] at hold ⊢
    intro n
    have hn := hold n
    simp only [List.flatMap_append, List.map_append, List.count_append] at hn
    simp only [pushNode_next, List.range_succ, List.flatMap_append, List.flatMap_singleton, List.map_append,
      List.map_cons, slotOf_val hroom, List.count_append, List.count_cons, List.count_nil]
    omega

/-- A new leaf is a tree of its own. -/
theorem Builder.Holds.addLeaf (h : b.Holds forest) (hroom : b.next < 513) (x : LeafSpec) :
    (pushNode x.node b).Holds (forest ++ [⟨slotOf b.next, .leaf x.1, [slotOf b.next]⟩]) := by
  have hb : b = b.withCands (forest.map Subtree.root) := by rw [← h.roots]
  have htree := TreeAt.leaf (pushNode_node_new x.node (b.withCands (forest.map Subtree.root)))
  have hpush := h.addRoot (used := []) hroom (List.Perm.refl _) htree
  rwa [← hb] at hpush

/-- A new internal node is the root of a tree made from two of the trees (R202). -/
theorem Builder.Holds.addInternal {p q : Subtree} {rest : List Subtree} (h : b.Holds forest) (hroom : b.next < 513)
    (hforest : forest.Perm (p :: q :: rest)) (w : BitVec 41) :
    (pushNode (.internal p.root q.root w) (b.withCands (rest.map Subtree.root))).Holds
      (rest ++ [⟨slotOf b.next, .node p.tree q.tree, slotOf b.next :: (p.slots ++ q.slots)⟩]) := by
  have hp := h.treeAt_pushNode hroom (.internal p.root q.root w) (rest.map Subtree.root)
    (hforest.mem_iff.2 List.mem_cons_self)
  have hq := h.treeAt_pushNode hroom (.internal p.root q.root w) (rest.map Subtree.root)
    (hforest.mem_iff.2 (List.mem_cons_of_mem _ List.mem_cons_self))
  have htree := TreeAt.internal (pushNode_node_new _ (b.withCands (rest.map Subtree.root))) hp hq
  have hslots : [p, q].flatMap Subtree.slots = p.slots ++ q.slots := by simp
  have hpush := h.addRoot (used := [p, q]) hroom hforest (hslots ▸ htree)
  rwa [hslots] at hpush

/-- Two candidates taken off are the roots of two trees taken out of the forest. -/
theorem Builder.Holds.takeTwo (h : b.Holds forest) {x y : Slot} {cands : List Slot}
    (hperm : b.cands.Perm (x :: y :: cands)) :
    ∃ p q rest, forest.Perm (p :: q :: rest) ∧ p.root = x ∧ q.root = y ∧ rest.map Subtree.root = cands := by
  rw [h.roots] at hperm
  have hcomp : (Relation.Comp (· = List.map Subtree.root ·) List.Perm) (x :: y :: cands) forest := by
    rw [List.eq_map_comp_perm]
    exact hperm.symm
  obtain ⟨l, hl, hforest⟩ := hcomp
  obtain ⟨p, l, rfl, hx, hl⟩ := List.map_eq_cons_iff.1 hl.symm
  obtain ⟨q, rest, rfl, hy, hrest⟩ := List.map_eq_cons_iff.1 hl
  exact ⟨p, q, rest, hforest.symm, hx, hy, hrest⟩

/-! ### The weights -/

/-- The greatest weight that 256 counts and the sentinel's leaf come to (R204). -/
def maxTreeWeight : Nat := 256 * (2 ^ 32 - 1) + 1

/-- WEIGHT_W has room for every sum within that bound (R204). -/
theorem toNat_add_of_le_maxTreeWeight {v w : BitVec 41} (h : v.toNat + w.toNat ≤ maxTreeWeight) :
    (v + w).toNat = v.toNat + w.toNat :=
  BitVec.toNat_add_of_lt (h.trans_lt (by decide))

/-- A leaf's weight is a count or 1, and an internal node's children stand in lower slots and its weight is the sum of
theirs (R204). Only its two lemmas unfold it: a `match` on a node of the builder's memory would run the builder. -/
@[irreducible] def ExactSlot (node : Vector Node 513) (i : Slot) : Prop :=
  match node[i.val] with
  | .leaf _ w => w.toNat < 2 ^ 32
  | .internal x y w => x.val < i.val ∧ y.val < i.val ∧
      w.toNat = (weightOf node[x.val]).toNat + (weightOf node[y.val]).toNat ∧ w.toNat ≤ maxTreeWeight

theorem exactSlot_of_leaf {node : Vector Node 513} {i : Slot} {sym : BitVec 9} {w : BitVec 41}
    (h : node[i.val] = .leaf sym w) : ExactSlot node i ↔ w.toNat < 2 ^ 32 := by
  rw [ExactSlot, h]

theorem exactSlot_of_internal {node : Vector Node 513} {i x y : Slot} {w : BitVec 41}
    (h : node[i.val] = .internal x y w) :
    ExactSlot node i ↔ x.val < i.val ∧ y.val < i.val ∧
      w.toNat = (weightOf node[x.val]).toNat + (weightOf node[y.val]).toNat ∧ w.toNat ≤ maxTreeWeight := by
  rw [ExactSlot, h]

/-- A slot in use stays exact when a node is created. -/
theorem ExactSlot.of_pushNode (hroom : b.next < 513) (x : Node) {i : Slot} (hi : i.val < b.next)
    (h : ExactSlot b.node i) : ExactSlot (pushNode x b).node i := by
  have hsame := pushNode_node_old hroom x hi
  cases hn : b.node[i.val] with
  | leaf sym w => rwa [exactSlot_of_leaf (hsame.trans hn), ← exactSlot_of_leaf hn]
  | internal y z w =>
    rw [exactSlot_of_internal hn] at h
    obtain ⟨hy, hz, hsum, hle⟩ := h
    rw [exactSlot_of_internal (hsame.trans hn), pushNode_node_old hroom x (hy.trans hi),
      pushNode_node_old hroom x (hz.trans hi)]
    exact ⟨hy, hz, hsum, hle⟩

/-- The candidates' weights together. -/
def candWeight (b : Builder) : Nat := (b.cands.map fun c => (weightOf b.node[c.val]).toNat).sum

/-- The weights of two candidates taken off, and those of the others. -/
theorem candWeight_takeTwo {x y : Slot} {rest : List Slot} (hperm : b.cands.Perm (x :: y :: rest)) :
    candWeight b = (weightOf b.node[x.val]).toNat + ((weightOf b.node[y.val]).toNat +
      candWeight (b.withCands rest)) :=
  (hperm.map _).sum_eq

/-- A new candidate's weight is added to those of the others. -/
theorem candWeight_pushNode (hroom : b.next < 513) (hcands : ∀ c ∈ b.cands, c.val < b.next) (x : Node) :
    candWeight (pushNode x b) = candWeight b + (weightOf x).toNat := by
  have hold : (b.cands.map fun c => (weightOf (pushNode x b).node[c.val]).toNat) =
      b.cands.map fun c => (weightOf b.node[c.val]).toNat :=
    List.map_congr_left fun c hc => by rw [pushNode_node_old hroom x (hcands c hc)]
  rw [candWeight, pushNode_cands, List.map_append, List.sum_append, hold]
  simp [candWeight]

/-! ### One merge -/

theorem leastFrom_mem (node : Vector Node 513) (a : Slot) (l : List Slot) : leastFrom node a l ∈ a :: l := by
  induction l generalizing a with
  | nil => exact List.mem_cons_self
  | cons b l ih =>
    rw [leastFrom]
    split
    · exact List.mem_cons_of_mem a (ih b)
    · exact List.cons_subset_cons a (List.subset_cons_self b l) (ih a)

/-- Of one candidate or more one is taken, and the others are left. -/
theorem takeLeast_eq_some (node : Vector Node 513) {l : List Slot} (h : l ≠ []) :
    ∃ x rest, takeLeast node l = some (x, rest) ∧ l.Perm (x :: rest) := by
  cases l with
  | nil => exact absurd rfl h
  | cons a l => exact ⟨_, _, rfl, List.perm_cons_erase (leastFrom_mem node a l)⟩

/-- Of two candidates or more two are taken, one after the other. -/
theorem takeLeast_twice (node : Vector Node 513) {l : List Slot} (h : 2 ≤ l.length) : ∃ x others y rest,
    takeLeast node l = some (x, others) ∧ l.Perm (x :: others) ∧
    takeLeast node others = some (y, rest) ∧ others.Perm (y :: rest) := by
  obtain ⟨x, others, hx, hl⟩ := takeLeast_eq_some node (List.ne_nil_of_length_pos (by omega : 0 < l.length))
  have hlen := hl.length_eq
  rw [List.length_cons] at hlen
  obtain ⟨y, rest, hy, hothers⟩ :=
    takeLeast_eq_some node (List.ne_nil_of_length_pos (by omega : 0 < others.length))
  exact ⟨x, others, y, rest, hx, hl, hy, hothers⟩

theorem mergeOnce_of_takeLeast {x y : Slot} {others rest : List Slot}
    (hx : takeLeast b.node b.cands = some (x, others)) (hy : takeLeast b.node others = some (y, rest)) :
    mergeOnce b = pushNode (.internal x y (weightOf b.node[x.val] + weightOf b.node[y.val])) (b.withCands rest) := by
  simp only [mergeOnce, hx, hy]

/-- All that a merge does: two candidates go and a new internal node above them comes (R202). -/
theorem mergeOnce_cases (h : 2 ≤ b.cands.length) : ∃ x y rest,
    b.cands.Perm (x :: y :: rest) ∧
    mergeOnce b = pushNode (.internal x y (weightOf b.node[x.val] + weightOf b.node[y.val])) (b.withCands rest) := by
  obtain ⟨x, _, y, rest, hx, hcands, hy, hothers⟩ := takeLeast_twice b.node h
  exact ⟨x, y, rest, hcands.trans (hothers.cons x), mergeOnce_of_takeLeast hx hy⟩

theorem mergeOnce_cands_length (h : 2 ≤ b.cands.length) : (mergeOnce b).cands.length + 1 = b.cands.length := by
  obtain ⟨x, y, rest, hperm, hmerge⟩ := mergeOnce_cases h
  rw [hmerge, hperm.length_eq]
  simp

/-! ### The invariant of building -/

/-- What the builder keeps while it makes a tree for the symbols syms (R205): every merge trades two candidates for one,
which is the newest slot; the trees of the candidates hold the symbols; and the weights are exact (R204). -/
structure Builder.Inv (syms : List (BitVec 9)) (b : Builder) : Prop where
  count : b.next + b.cands.length = 2 * syms.length
  newest : b.cands.getLast? = some (slotOf (b.next - 1))
  forest : ∃ forest, b.Holds forest ∧ (forestSymbols forest).Perm syms
  exact : ∀ i : Slot, i.val < b.next → ExactSlot b.node i
  weight : candWeight b ≤ maxTreeWeight

variable {syms : List (BitVec 9)}

theorem Builder.Inv.cand_lt (h : b.Inv syms) {c : Slot} (hc : c ∈ b.cands) : c.val < b.next := by
  obtain ⟨forest, hholds, -⟩ := h.forest
  exact hholds.cand_lt hc

/-- There is a slot left for each merge (R205). -/
theorem Builder.Inv.room (h : b.Inv syms) (hsyms : syms.length ≤ 257) (htwo : 2 ≤ b.cands.length) : b.next < 513 := by
  have := h.count
  omega

/-- A merge makes a slot whose weight is the exact sum of its children's, within the bound (R204). -/
theorem exactSlot_merged {x y : Slot} {rest : List Slot} (hroom : b.next < 513) (hx : x.val < b.next)
    (hy : y.val < b.next)
    (hle : (weightOf b.node[x.val]).toNat + (weightOf b.node[y.val]).toNat ≤ maxTreeWeight) :
    ExactSlot (pushNode (.internal x y (weightOf b.node[x.val] + weightOf b.node[y.val]))
      (b.withCands rest)).node (slotOf b.next) := by
  rw [exactSlot_of_internal (pushNode_node_new _ (b.withCands rest)),
    pushNode_node_old (b := b.withCands rest) hroom _ hx, pushNode_node_old (b := b.withCands rest) hroom _ hy,
    slotOf_val hroom]
  have hsum := toNat_add_of_le_maxTreeWeight hle
  exact ⟨hx, hy, hsum, hsum.trans_le hle⟩

/-- A tree made from two trees has the symbols of both. -/
theorem forestSymbols_merged {p q : Subtree} {rest : List Subtree} (h : forest.Perm (p :: q :: rest)) (i : Slot)
    (slots : List Slot) :
    (forestSymbols (rest ++ [⟨i, .node p.tree q.tree, slots⟩])).Perm (forestSymbols forest) :=
  calc forestSymbols (rest ++ [⟨i, .node p.tree q.tree, slots⟩])
    _ = forestSymbols rest ++ forestSymbols [p, q] := by simp [forestSymbols]
    List.Perm _ (forestSymbols [p, q] ++ forestSymbols rest) := List.perm_append_comm
    _ = forestSymbols (p :: q :: rest) := by simp [forestSymbols]
    List.Perm _ (forestSymbols forest) := h.symm.flatMap_right _

/-- Each merge keeps the invariant (R202). -/
theorem Builder.Inv.merge (h : b.Inv syms) (hsyms : syms.length ≤ 257) (htwo : 2 ≤ b.cands.length) :
    (mergeOnce b).Inv syms := by
  have hroom := h.room hsyms htwo
  have hlen := mergeOnce_cands_length htwo
  obtain ⟨x, y, rest, hperm, hmerge⟩ := mergeOnce_cases htwo
  obtain ⟨forest, hholds, hforest⟩ := h.forest
  obtain ⟨p, q, trees, htrees, rfl, rfl, rfl⟩ := hholds.takeTwo hperm
  have hx := h.cand_lt (hperm.mem_iff.2 List.mem_cons_self)
  have hy := h.cand_lt (hperm.mem_iff.2 (List.mem_cons_of_mem _ List.mem_cons_self))
  have hrest : ∀ c ∈ trees.map Subtree.root, c.val < b.next := fun c hc =>
    h.cand_lt (hperm.mem_iff.2 (List.mem_cons_of_mem _ (List.mem_cons_of_mem _ hc)))
  have hle := (candWeight_takeTwo hperm).symm.trans_le h.weight
  have hcount := h.count
  rw [hmerge] at hlen ⊢
  refine ⟨?_, by simp, ⟨_, hholds.addInternal hroom htrees _, (forestSymbols_merged htrees _ _).trans hforest⟩,
    fun i hi => ?_, ?_⟩
  · rw [pushNode_next, Nat.add_right_comm, Nat.add_assoc, hlen, hcount]
  · rcases Nat.lt_succ_iff_lt_or_eq.1 hi with hlt | heq
    · exact ExactSlot.of_pushNode (b := b.withCands (trees.map Subtree.root)) hroom _ hlt (h.exact i hlt)
    · rw [← slotOf_val_self i, heq]
      exact exactSlot_merged hroom hx hy (by omega)
  · rw [candWeight_pushNode (b := b.withCands (trees.map Subtree.root)) hroom hrest, weightOf,
      toNat_add_of_le_maxTreeWeight (by omega)]
    omega

/-! ### Seeding -/

/-- The leaves that were created are a forest of one-leaf trees. -/
theorem pushLeaves_holds (node : Vector Node 513) {xs : List LeafSpec} (hroom : xs.length ≤ 513) :
    ∃ forest, (pushLeaves node xs).Holds forest ∧ forestSymbols forest = xs.map Prod.fst := by
  induction xs using List.reverseRecOn with
  | nil => exact ⟨[], ⟨rfl, by simp, by simp [pushLeaves]⟩, rfl⟩
  | append_singleton xs x ih =>
    rw [List.length_append, List.length_singleton] at hroom
    obtain ⟨forest, hholds, hsyms⟩ := ih (by omega)
    rw [pushLeaves_concat]
    refine ⟨_, hholds.addLeaf (by rw [pushLeaves_next]; omega) x, ?_⟩
    rw [forestSymbols, List.flatMap_append, ← forestSymbols, hsyms]
    simp

theorem candWeight_pushLeaves (node : Vector Node 513) {xs : List LeafSpec} (hroom : xs.length ≤ 513) :
    candWeight (pushLeaves node xs) = (xs.map fun x => x.2.toNat).sum := by
  rw [candWeight, pushLeaves_cands]
  refine congrArg List.sum (List.ext_getElem (by simp) fun k hk _ => ?_)
  have hk : k < xs.length := by simpa using hk
  simp [pushLeaves_node node hroom hk, LeafSpec.node, weightOf]

/-- A leaf's weight is a count or 1 (R201). -/
theorem seedLeaves_weight_lt {freq : Vector Word 256} {x : LeafSpec} (hx : x ∈ seedLeaves freq) :
    x.2.toNat < 2 ^ 32 := by
  rcases List.mem_append.1 hx with hcounted | hsentinel
  · obtain ⟨i, -, rfl⟩ := List.mem_map.1 hcounted
    rw [BitVec.toNat_setWidth_of_le (by decide)]
    exact freq[i.val].isLt
  · rw [List.mem_singleton.1 hsentinel]
    decide

/-- 256 counts and 1 at most (R204). -/
theorem seedLeaves_weight_le (freq : Vector Word 256) :
    ((seedLeaves freq).map fun x => x.2.toNat).sum ≤ maxTreeWeight := by
  have hcounts := List.sum_le_card_nsmul ((countedSymbols freq).map fun i => (freq[i.val].setWidth 41).toNat)
    (2 ^ 32 - 1) (by
      intro n hn
      obtain ⟨i, -, rfl⟩ := List.mem_map.1 hn
      rw [BitVec.toNat_setWidth_of_le (by decide)]
      exact Nat.le_sub_one_of_lt freq[i.val].isLt)
  have hlen := countedSymbols_length_le freq
  rw [List.length_map, smul_eq_mul] at hcounts
  simp only [seedLeaves, List.map_append, List.map_map, List.map_cons, List.map_nil, List.sum_append]
  change (List.map _ _).sum + 1 ≤ _
  exact Nat.succ_le_succ (hcounts.trans (Nat.mul_le_mul_right _ hlen))

/-- The symbols at the leaves of the tree of a table of counts (R201). -/
def treeSymbols (freq : Vector Word 256) : List (BitVec 9) := (seedLeaves freq).map Prod.fst

theorem treeSymbols_length (freq : Vector Word 256) : (treeSymbols freq).length = (seedLeaves freq).length :=
  List.length_map _

theorem treeSymbols_length_le (freq : Vector Word 256) : (treeSymbols freq).length ≤ 257 :=
  (treeSymbols_length freq).trans_le (seedLeaves_length_le freq)

theorem seed_inv (freq : Vector Word 256) (node : Vector Node 513) :
    (seed freq node).Inv (treeSymbols freq) := by
  have hle := seedLeaves_length_le freq
  have hroom : (seedLeaves freq).length ≤ 513 := by omega
  rw [seed_eq_pushLeaves]
  obtain ⟨forest, hholds, hsyms⟩ := pushLeaves_holds node hroom
  refine ⟨?_, ?_, ⟨forest, hholds, .of_eq hsyms⟩, fun i hi => ?_, ?_⟩
  · simp [Nat.two_mul, treeSymbols_length]
  · rw [seedLeaves, pushLeaves_concat, pushNode_cands, List.getLast?_concat]
    rfl
  · have hi : i.val < (seedLeaves freq).length := by simpa using hi
    have hleaf := pushLeaves_node node hroom hi
    simp only [slotOf_val_self] at hleaf
    rw [exactSlot_of_leaf hleaf]
    exact seedLeaves_weight_lt (List.getElem_mem hi)
  · rw [candWeight_pushLeaves node hroom]
    exact seedLeaves_weight_le freq

/-! ### Merging to the end -/

/-- What every merge keeps, merging to the end keeps. -/
theorem mergeAll_induction {P : Builder → Prop} (hmerge : ∀ b, P b → 2 ≤ b.cands.length → P (mergeOnce b))
    (fuel : Nat) (h : P b) : P (mergeAll fuel b) := by
  induction fuel generalizing b with
  | zero => exact h
  | succ fuel ih =>
    rw [mergeAll]
    split
    · exact h
    · exact ih (hmerge b h (by omega))

/-- One candidate is left in the end (R202). -/
theorem mergeAll_cands_length {fuel : Nat} (hpos : 1 ≤ b.cands.length) (hfuel : b.cands.length ≤ fuel + 1) :
    (mergeAll fuel b).cands.length = 1 := by
  induction fuel generalizing b with
  | zero => exact le_antisymm hfuel hpos
  | succ fuel ih =>
    rw [mergeAll]
    split
    · omega
    · have := mergeOnce_cands_length (b := b) (by omega)
      exact ih (by omega) (by omega)

theorem buildTree_inv (freq : Vector Word 256) (node : Vector Node 513) :
    (buildTree freq node).Inv (treeSymbols freq) :=
  mergeAll_induction (fun _ h htwo => h.merge (treeSymbols_length_le freq) htwo) _ (seed_inv freq node)

theorem buildTree_cands_length (freq : Vector Word 256) (node : Vector Node 513) :
    (buildTree freq node).cands.length = 1 := by
  refine mergeAll_cands_length ?_ (Nat.le_succ _)
  rw [seed_eq_pushLeaves, pushLeaves_cands, List.length_map, List.length_range, seedLeaves_length]
  exact Nat.le_add_left ..

/-- A tree of L leaves takes 2L - 1 slots (R205). -/
theorem buildTree_next (freq : Vector Word 256) (node : Vector Node 513) :
    (buildTree freq node).next = 2 * (treeSymbols freq).length - 1 := by
  have hcount := (buildTree_inv freq node).count
  rw [buildTree_cands_length] at hcount
  omega

/-- The root is the last slot that was taken (R205). -/
theorem buildTree_cands (freq : Vector Word 256) (node : Vector Node 513) :
    (buildTree freq node).cands = [slotOf (2 * (treeSymbols freq).length - 2)] := by
  have hnewest := (buildTree_inv freq node).newest
  obtain ⟨c, hc⟩ := List.length_eq_one_iff.1 (buildTree_cands_length freq node)
  rw [hc, buildTree_next, List.getLast?_singleton, Option.some.injEq] at hnewest
  rw [hc, hnewest, Nat.sub_sub]

/-- The node memory holds one tree, with the symbols at its leaves and every slot in use in it once (R205). -/
theorem buildTree_treeAt (freq : Vector Word 256) (node : Vector Node 513) : ∃ tree slots,
    TreeAt (buildTree freq node).node (slotOf (2 * (treeSymbols freq).length - 2)) tree slots ∧
    tree.symbols.Perm (treeSymbols freq) ∧
    (slots.map Fin.val).Perm (List.range (2 * (treeSymbols freq).length - 1)) := by
  obtain ⟨forest, hholds, hsyms⟩ := (buildTree_inv freq node).forest
  have hroots := hholds.roots
  rw [buildTree_cands] at hroots
  obtain ⟨p, rfl, hp⟩ := List.map_eq_singleton_iff.1 hroots.symm
  refine ⟨p.tree, p.slots, hp ▸ hholds.trees p (List.mem_singleton_self p), ?_, ?_⟩
  · simpa [forestSymbols] using hsyms
  · have hslots := hholds.slots
    rwa [List.flatMap_singleton, buildTree_next] at hslots

end Sys2Proof.Machine
end

section
/-! TB_BUILD (R200): the tree it makes is a function of FREQ alone, and the obligations about it. -/

namespace Sys2Proof.Machine

/-! ### The slots that are not used do not matter -/

/-- Two builders that differ at most in slots that are not in use. -/
structure Builder.Agrees (b b' : Builder) : Prop where
  cands : b'.cands = b.cands
  next : b'.next = b.next
  node : ∀ i : Slot, i.val < b.next → b'.node[i.val] = b.node[i.val]

variable {b b' : Builder}

theorem Builder.Agrees.withCands (h : b.Agrees b') (cands : List Slot) :
    (b.withCands cands).Agrees (b'.withCands cands) := ⟨rfl, h.next, h.node⟩

theorem Builder.Agrees.addNode (h : b.Agrees b') (hroom : b.next < 513) (x : Node) :
    (pushNode x b).Agrees (pushNode x b') where
  cands := by rw [pushNode_cands, pushNode_cands, h.cands, h.next]
  next := congrArg (· + 1) h.next
  node := by
    intro i hi
    rcases Nat.lt_succ_iff_lt_or_eq.1 hi with hlt | heq
    · rw [pushNode_node_old (h.next.trans_lt hroom) x (hlt.trans_eq h.next.symm), pushNode_node_old hroom x hlt,
        h.node i hlt]
    · obtain rfl : i = slotOf b.next := by rw [← heq, slotOf_val_self]
      have hnew := pushNode_node_new x b'
      simp only [h.next] at hnew
      rw [hnew, pushNode_node_new]

/-- Seeding leaves the slots that it does not use as they were, and no others (R201). -/
theorem seed_agrees (freq : Vector Word 256) (node node' : Vector Node 513) :
    (seed freq node).Agrees (seed freq node') := by
  have hle := seedLeaves_length_le freq
  rw [seed_eq_pushLeaves, seed_eq_pushLeaves]
  refine ⟨by simp, by simp, fun i hi => ?_⟩
  have hi : i.val < (seedLeaves freq).length := by simpa using hi
  have hleaf := pushLeaves_node node (by omega) hi
  have hleaf' := pushLeaves_node node' (by omega) hi
  simp only [slotOf_val_self] at hleaf hleaf'
  rw [hleaf, hleaf']

/-- The least candidate is chosen by the candidates' weights and slots alone (R202). -/
theorem leastFrom_congr {node node' : Vector Node 513} {a : Slot} {l : List Slot}
    (h : ∀ c ∈ a :: l, node'[c.val] = node[c.val]) : leastFrom node' a l = leastFrom node a l := by
  induction l generalizing a with
  | nil => rfl
  | cons c l ih =>
    have ha := h a List.mem_cons_self
    have hc := h c (List.mem_cons_of_mem _ List.mem_cons_self)
    have hkey : keyLess node' c a = keyLess node c a := by rw [keyLess, keyLess, ha, hc]
    rw [leastFrom, leastFrom, hkey]
    refine ih fun d hd => ?_
    rcases List.mem_cons.1 hd with rfl | hd
    · split
      · exact hc
      · exact ha
    · exact h d (List.mem_cons_of_mem _ (List.mem_cons_of_mem _ hd))

theorem takeLeast_congr {node node' : Vector Node 513} {l : List Slot} (h : ∀ c ∈ l, node'[c.val] = node[c.val]) :
    takeLeast node' l = takeLeast node l := by
  cases l with
  | nil => rfl
  | cons a l => rw [takeLeast, takeLeast, leastFrom_congr h]

/-- A merge takes the same candidates from both, for they look at slots in use only. -/
theorem Builder.Agrees.merge (h : b.Agrees b') (hcands : ∀ c ∈ b.cands, c.val < b.next) (hroom : b.next < 513)
    (htwo : 2 ≤ b.cands.length) : (mergeOnce b).Agrees (mergeOnce b') := by
  obtain ⟨x, others, y, rest, hx, hperm, hy, hothers⟩ := takeLeast_twice b.node htwo
  have hnode : ∀ c ∈ x :: others, b'.node[c.val] = b.node[c.val] := fun c hc =>
    h.node c (hcands c (hperm.mem_iff.2 hc))
  have hnodeOthers : ∀ c ∈ others, b'.node[c.val] = b.node[c.val] := fun c hc => hnode c (List.mem_cons_of_mem x hc)
  have hx' : takeLeast b'.node b'.cands = some (x, others) := by
    rw [h.cands, takeLeast_congr fun c hc => hnode c (hperm.mem_iff.1 hc), hx]
  have hy' : takeLeast b'.node others = some (y, rest) := by rw [takeLeast_congr hnodeOthers, hy]
  rw [mergeOnce_of_takeLeast hx hy, mergeOnce_of_takeLeast hx' hy', hnode x List.mem_cons_self,
    hnodeOthers y (hothers.mem_iff.2 List.mem_cons_self)]
  exact (h.withCands rest).addNode hroom _

/-- Merging to the end, too, looks at slots in use only. -/
theorem Builder.Agrees.mergeToEnd {syms : List (BitVec 9)} (hsyms : syms.length ≤ 257) (fuel : Nat) (h : b.Agrees b')
    (hinv : b.Inv syms) : (mergeAll fuel b).Agrees (mergeAll fuel b') := by
  induction fuel generalizing b b' with
  | zero => exact h
  | succ fuel ih =>
    rw [mergeAll, mergeAll, h.cands]
    split
    · exact h
    · have htwo : 2 ≤ b.cands.length := by omega
      exact ih (h.merge (fun _ => hinv.cand_lt) (hinv.room hsyms htwo) htwo) (hinv.merge hsyms htwo)

/-- The slots that a tree uses depend on FREQ alone (R205). -/
theorem buildTree_agrees (freq : Vector Word 256) (node node' : Vector Node 513) :
    (buildTree freq node).Agrees (buildTree freq node') := by
  have hseed := seed_agrees freq node node'
  have hmerged := hseed.mergeToEnd (treeSymbols_length_le freq) (seed freq node).cands.length (seed_inv freq node)
  rwa [buildTree, buildTree, hseed.cands]

/-! ### The command -/

/-- The machine after TB_BUILD (R200). Its lemmas say what it holds: unfolded, it would have `rfl` run the builder. -/
@[irreducible] def built (s : State) : State :=
  let t := putTreeValid true (storeTree (putTableValid false s))
  done (setResults (BitVec.ofNat 32 t.nleaves) (BitVec.ofNat 32 t.nnodes) t)

theorem exec_tbBuild (s : State) : exec .tbBuild s = .next (built s) := by
  rw [built]
  exact exec_of_ok (i := .tbBuild) rfl

theorem built_node (s : State) : (built s).node = (buildTree s.freq s.node).node := by
  simp only [built, done_node, setResults_node, putTreeValid_node, storeTree, putTableValid_freq, putTableValid_node]

theorem built_root (s : State) : (built s).root = slotOf (2 * (treeSymbols s.freq).length - 2) := by
  simp only [built, done_root, setResults_root, putTreeValid_root, storeTree, putTableValid_freq, putTableValid_node,
    buildTree_cands, List.headD_cons]

/-- TB_BUILD changes the tree, its flags and the results, and nothing else (R200). -/
theorem built_eq (s : State) : built s = done { s with
    status := s.status.withValid true false, node := (built s).node, root := (built s).root,
    nleaves := (treeSymbols s.freq).length, nnodes := 2 * (treeSymbols s.freq).length - 1,
    result0 := BitVec.ofNat 32 (treeSymbols s.freq).length,
    result1 := BitVec.ofNat 32 (2 * (treeSymbols s.freq).length - 1) } := by
  have hnleaves : (seed s.freq s.node).next = (treeSymbols s.freq).length :=
    (storeTree_nleaves s).trans (treeSymbols_length s.freq).symm
  rw [built_node, built_root, built]
  simp only [storeTree, putTableValid, putTreeValid, setResults, hnleaves, buildTree_next, buildTree_cands,
    List.headD_cons, Status.withValid]

theorem built_nleaves (s : State) : (built s).nleaves = (treeSymbols s.freq).length := by
  rw [built_eq, done_nleaves]

/-- The tree in the node memory after TB_BUILD, with the slots that it takes. -/
theorem built_treeAt (s : State) : ∃ tree slots, TreeAt (built s).node (built s).root tree slots ∧
    tree.symbols.Perm (treeSymbols s.freq) ∧
    (slots.map Fin.val).Perm (List.range (2 * (treeSymbols s.freq).length - 1)) := by
  rw [built_node, built_root]
  exact buildTree_treeAt s.freq s.node

/-- A tree with these symbols has a leaf for each of them. -/
theorem leafCount_of_symbols_perm {tree : CodeTree} {syms : List (BitVec 9)} (h : tree.symbols.Perm syms) :
    tree.leafCount = syms.length := (symbols_length tree).symm.trans h.length_eq

/-- The walk of a command reaches the whole tree that TB_BUILD made (R222). -/
theorem leafCount_le_walkFuel {freq : Vector Word 256} {tree : CodeTree} (h : tree.symbols.Perm (treeSymbols freq)) :
    tree.leafCount ≤ walkFuel :=
  (leafCount_of_symbols_perm h).trans_le (treeSymbols_length_le freq)

/-- The same counts give the same tree in the same slots, whatever the node memory held before (R205). -/
theorem treeAt_built_of_freq_eq {s s' : State} (hfreq : s'.freq = s.freq) {tree : CodeTree} {slots : List Slot}
    (h : TreeAt (built s).node (built s).root tree slots)
    (hslots : (slots.map Fin.val).Perm (List.range (2 * (treeSymbols s.freq).length - 1))) :
    TreeAt (built s').node (built s').root tree slots := by
  rw [built_node, built_root] at h ⊢
  rw [hfreq]
  refine h.congr fun j hj => (buildTree_agrees s.freq s.node s'.node).node j ?_
  rw [buildTree_next]
  exact List.mem_range.1 (hslots.subset (List.mem_map_of_mem hj))

/-- The slots of the tree that TB_BUILD made have exact weights (R204). -/
theorem exactSlot_built {s : State} {i : Slot} (hi : i.val < 2 * (treeSymbols s.freq).length - 1) :
    ExactSlot (built s).node i := by
  rw [built_node]
  exact (buildTree_inv s.freq s.node).exact i (hi.trans_eq (buildTree_next s.freq s.node).symm)

/-! ### The obligations -/

/-- Settles O28: the one tree that `built_treeAt` finds has all the properties, and another state with the same FREQ gets
the same one. -/
theorem tbBuildMakesTheTree : Obligations.TbBuildMakesTheTree := by
  intro s
  obtain ⟨tree, slots, htree, hsyms, hslots⟩ := built_treeAt s
  have hleaves := leafCount_of_symbols_perm hsyms
  obtain ⟨htreeOf, hslotsOf⟩ := htree.walk (leafCount_le_walkFuel hsyms)
  refine ⟨built s, tree, ?_⟩
  intro syms
  have heq : syms = treeSymbols s.freq := by simp [syms, treeSymbols, seedLeaves, countedSymbols]
  have hle := treeSymbols_length_le s.freq
  rw [heq]
  refine ⟨exec_tbBuild s, built_eq s, htreeOf, hsyms, hleaves, ?_, ?_, hslotsOf ▸ hslots, fun p hp => ?_,
    fun s' t' hfreq hexec => ?_⟩
  · have := nodeCount_succ tree
    omega
  · rw [built_root, slotOf_val (by omega)]
  · have := htree.code_length_lt hp
    omega
  · obtain rfl : built s' = t' := Host.Outcome.next.inj ((exec_tbBuild s').symm.trans hexec)
    exact ((treeAt_built_of_freq_eq hfreq htree hslots).walk (leafCount_le_walkFuel hsyms)).1

/-- Settles O29: the slots that the walk reaches are those the builder used, and it kept their weights exact. -/
theorem builtWeightsAreExactSums : Obligations.BuiltWeightsAreExactSums := by
  intro s t hexec
  obtain rfl : built s = t := Host.Outcome.next.inj ((exec_tbBuild s).symm.trans hexec)
  obtain ⟨tree, slots, htree, hsyms, hslots⟩ := built_treeAt s
  refine ⟨(built_nleaves s).trans_le (treeSymbols_length_le s.freq), fun i hi => ?_⟩
  rw [(htree.walk (leafCount_le_walkFuel hsyms)).2] at hi
  have hexact := exactSlot_built (List.mem_range.1 (hslots.subset (List.mem_map_of_mem hi)))
  cases hn : (built s).node[i.val] with
  | leaf sym w => exact (exactSlot_of_leaf hn).1 hexact
  | internal l r w =>
    obtain ⟨-, -, hsum, hle⟩ := (exactSlot_of_internal hn).1 hexact
    exact ⟨hsum, hle⟩

end Sys2Proof.Machine
end

section
/-! What CT_GET reads of the code table (R223, R224): the words of a code, bit by bit, and the order of its checks. -/

namespace Sys2Proof.Machine

/-! ### The words of a code -/

/-- The first bit of a field is the most significant one of its value (R80). -/
theorem testBit_bitsToNat {b : Bits} {j : Nat} (h : j < b.length) :
    (bitsToNat b).testBit (b.length - 1 - j) = b[j] := by
  induction b generalizing j with
  | nil => cases h
  | cons x b ih =>
    rw [bitsToNat_cons, Nat.mul_comm, Nat.testBit_two_pow_mul_add _ (bitsToNat_lt b), List.length_cons,
      Nat.add_sub_cancel]
    cases j with
    | zero => cases x <;> simp
    | succ j =>
      have hj : j < b.length := Nat.lt_of_succ_lt_succ h
      have hplace : b.length - (j + 1) = b.length - 1 - j := by omega
      rw [hplace, if_pos (by omega), ih hj, List.getElem_cons_succ]

/-- A register as wide as a field holds the field with its first bit on top. -/
theorem getLsbD_ofNat_bitsToNat {b : Bits} {n j : Nat} (hlen : b.length = n) (h : j < b.length) :
    (BitVec.ofNat n (bitsToNat b)).getLsbD (n - 1 - j) = b[j] := by
  subst hlen
  have hpos : b.length - 1 - j < b.length := by omega
  rw [BitVec.getLsbD_ofNat, decide_eq_true hpos, Bool.true_and, testBit_bitsToNat h]

/-- Settles O33: a code word is the value of a 32-bit field whose first bit is bit 32k of the code. -/
theorem codeWordHoldsTheCodeMsbFirst : Obligations.CodeWordHoldsTheCodeMsbFirst := by
  intro e k j hj
  rw [codeWord, getLsbD_ofNat_bitsToNat (n := 32) (by simp) (by simpa using hj), List.getElem_map,
    List.getElem_range]

/-! ### The results of CT_GET -/

/-- RESULT0 of a present entry is LEN below a 1 in bit 31 (R223). -/
theorem presentWord_eq (e : CodeEntry) : presentWord e = BitVec.ofNat 32 (2 ^ 31 + e.len.toNat) := by
  apply BitVec.eq_of_toNat_eq
  have hlen : e.len.toNat < 2 ^ 9 := e.len.isLt
  calc (presentWord e).toNat
      = (1#1 ++ 0#22).toNat <<< 9 ||| e.len.toNat := BitVec.toNat_append ..
    _ = 2 ^ 31 + e.len.toNat := (Nat.shiftLeft_add_eq_or_of_lt hlen _).symm
    _ = (BitVec.ofNat 32 (2 ^ 31 + e.len.toNat)).toNat := (Nat.mod_eq_of_lt (by omega)).symm

theorem codeResults_absent {e : CodeEntry} (h : e.present = false) (k : Nat) : codeResults e k = (0, 0) := by
  simp [codeResults, h]

theorem codeResults_present {e : CodeEntry} (h : e.present = true) (k : Nat) :
    codeResults e k = (BitVec.ofNat 32 (2 ^ 31 + e.len.toNat), if k < 8 then codeWord e k else 0) := by
  rw [codeResults, if_pos h, presentWord_eq]

/-! ### The rule of CT_GET -/

section
variable {s : State}

/-- The table is checked before the operand (R335). -/
theorem ruleCtGet_noTable (h : s.status.tableValid = false) :
    ruleCtGet.run ⟨s, none⟩ = .error (.raised .preconditionError 0) ⟨s, none⟩ := by
  rw [ruleCtGet, bind_of_ok (getState_run _), if_pos h, raise_run]

/-- With a table, CT_GET reads its symbol and returns what the entry holds (R223). -/
theorem ruleCtGet_run_of_table (h : s.status.tableValid = true) :
    ruleCtGet.run ⟨s, none⟩ = (codeSymbolOperand >>= fun i =>
      modState (setResults (codeResults s.code[i.val] s.arg1.toNat).1
        (codeResults s.code[i.val] s.arg1.toNat).2)).run ⟨s, none⟩ := by
  rw [ruleCtGet, bind_of_ok (getState_run _), if_neg (ne_false_of_eq_true h)]
  rfl

theorem ruleCtGet_notSymbol (htable : s.status.tableValid = true) (h : 257 ≤ s.arg0.toNat) :
    ruleCtGet.run ⟨s, none⟩ = .error (.raised .invalidSymbol s.arg0) ⟨s, none⟩ :=
  (ruleCtGet_run_of_table htable).trans (bind_of_error (codeSymbolOperand_error h))

theorem ruleCtGet_symbol (htable : s.status.tableValid = true) (h : s.arg0.toNat < 257) {r0 r1 : Word}
    (hresults : codeResults s.code[s.arg0.toNat] s.arg1.toNat = (r0, r1)) :
    ruleCtGet.run ⟨s, none⟩ = .ok () ⟨setResults r0 r1 s, none⟩ := by
  rw [ruleCtGet_run_of_table htable, bind_of_ok (codeSymbolOperand_ok h), modState_run, hresults]

end

/-- Settles O34: the table is checked before the symbol, and the entry says which results are set. -/
theorem ctGetReadsOneCode : Obligations.CtGetReadsOneCode := by
  refine ⟨rfl, fun s => ⟨fun h => ?_, fun htable h => ?_, fun htable h => ⟨fun habsent => ?_, fun hpresent => ?_⟩⟩⟩
  · exact exec_endsInError (i := .ctGet) (ruleCtGet_noTable h)
  · exact exec_endsInError (i := .ctGet) (ruleCtGet_notSymbol htable h)
  · exact exec_of_ok (i := .ctGet) (ruleCtGet_symbol htable h (codeResults_absent habsent _))
  · exact exec_of_ok (i := .ctGet) (ruleCtGet_symbol htable h (codeResults_present hpresent _))

end Sys2Proof.Machine
end

section
/-! Sending a header (R240 to R242): how long a tree's token is, and what HC_WRITE leaves. -/

namespace Sys2Proof.Machine

/-- A leaf's token has 10 bits, an inner node's has 1, and there is one inner node fewer than leaves (R242). -/
theorem header_length (tree : CodeTree) : 32 + tree.tokens.length = 11 * tree.leafCount + 31 := by
  induction tree with
  | leaf sym => simp [CodeTree.tokens, CodeTree.leafCount]
  | node l r ihl ihr =>
    simp only [CodeTree.tokens, CodeTree.leafCount, List.length_cons, List.length_append]
    omega

/-- Settles O36, by induction on the tree. -/
theorem headerLengthIsElevenPerLeaf : Obligations.HeaderLengthIsElevenPerLeaf := header_length

/-- HC_WRITE checks TREE_VALID before it sends anything (R240). -/
theorem ruleHcWrite_noTree {s : State} (h : s.status.treeValid = false) :
    ruleHcWrite.run ⟨s, none⟩ = .error (.raised .preconditionError 0) ⟨s, none⟩ := by
  rw [ruleHcWrite, bind_of_ok (getState_run _), if_pos h, raise_run]

/-- HC_WRITE with a tree sends the header and returns its length (R240, R242). -/
theorem exec_hcWrite {s : State} {tree : CodeTree} (hvalid : s.status.treeValid = true) (htree : s.tree = some tree) :
    exec .hcWrite s = .next (done
      { s with snk := s.snk ++ s.magicBits ++ tree.tokens,
               result0 := BitVec.ofNat 32 (11 * tree.leafCount + 31), result1 := 0 }) := by
  have hrun : ruleHcWrite.run ⟨s, none⟩ = .ok ()
      ⟨setResults (BitVec.ofNat 32 (32 + tree.tokens.length)) 0 { appendSnk (s.magicBits ++ tree.tokens) s with
        work := { s.work with hdrBits := 32 + tree.tokens.length } }, none⟩ := by
    rw [ruleHcWrite, bind_of_ok (getState_run _), if_neg (ne_false_of_eq_true hvalid),
      bind_of_ok (writeHeader_run htree), modState_run]
  rw [exec_of_ok (i := .hcWrite) hrun, header_length, List.append_assoc]
  rfl

/-- Settles O37: TREE_VALID is checked first, and then the header's bits are sent and counted. -/
theorem hcWriteSendsTheHeader : Obligations.HcWriteSendsTheHeader :=
  ⟨rfl, fun _ => ⟨fun h => exec_endsInError (i := .hcWrite) (ruleHcWrite_noTree h), fun _ => exec_hcWrite⟩⟩

end Sys2Proof.Machine
end

section
/-! The node memory that the header reader leaves (R243, R244): the tree it read stands in consecutive slots in pre-order,
with weights 0. -/

namespace Sys2Proof.Machine

/-- The k slots from slot n on. -/
def slotRun (n k : Nat) : List Slot := (List.range' n k).map slotOf

/-- In pre-order a node's slot stands before those of its left subtree, and these before those of the right one. -/
theorem slotRun_node (n k m : Nat) :
    slotRun n (k + m + 1) = slotOf n :: (slotRun (n + 1) k ++ slotRun (n + 1 + k) m) := by
  simp [slotRun, List.range'_succ, ← List.range'_append_1]

theorem mem_slotRun {n k : Nat} (hroom : n + k ≤ 513) {j : Slot} : j ∈ slotRun n k ↔ n ≤ j.val ∧ j.val < n + k := by
  simp only [slotRun, List.mem_map, List.mem_range'_1]
  refine ⟨?_, fun h => ⟨j.val, h, slotOf_val_self j⟩⟩
  rintro ⟨i, hi, rfl⟩
  rwa [slotOf_val (by omega)]

section
variable {n : Nat} {tree l r : CodeTree} {node : Vector Node 513} {j : Slot}

/-- Writing a slot leaves the nodes in other slots. -/
theorem set_slotOf_getElem_of_ne (hn : n < 513) (x : Node) (h : j.val ≠ n) :
    (node.set (slotOf n).val x)[j.val] = node[j.val] := by
  refine Vector.getElem_set_ne _ _ fun heq => h ?_
  rw [← heq, slotOf_val hn]

/-- Reading a tree's token writes no slot but those it takes. -/
theorem rebuilt_getElem_of_outside (hroom : n + tree.nodeCount ≤ 513) (h : j.val < n ∨ n + tree.nodeCount ≤ j.val) :
    (rebuilt tree n node)[j.val] = node[j.val] := by
  induction tree generalizing n node with
  | leaf sym =>
    rw [CodeTree.nodeCount] at hroom h
    exact set_slotOf_getElem_of_ne (by omega) _ (by omega)
  | node l r ihl ihr =>
    rw [CodeTree.nodeCount] at hroom h
    rw [rebuilt, set_slotOf_getElem_of_ne (by omega) _ (by omega), ihr (by omega) (by omega),
      ihl (by omega) (by omega)]

/-- The left subtree's slots hold what reading the left subtree put there. -/
theorem rebuilt_node_getElem_left (hroom : n + (CodeTree.node l r).nodeCount ≤ 513)
    (h : n + 1 ≤ j.val ∧ j.val < n + 1 + l.nodeCount) :
    (rebuilt (.node l r) n node)[j.val] = (rebuilt l (n + 1) node)[j.val] := by
  rw [CodeTree.nodeCount] at hroom
  rw [rebuilt, set_slotOf_getElem_of_ne (by omega) _ (by omega),
    rebuilt_getElem_of_outside (by omega) (by omega)]

/-- The right subtree's slots hold what reading the right subtree put there. -/
theorem rebuilt_node_getElem_right (h : n + 1 + l.nodeCount ≤ j.val) :
    (rebuilt (.node l r) n node)[j.val] =
      (rebuilt r (n + 1 + l.nodeCount) (rebuilt l (n + 1) node))[j.val] := by
  rw [rebuilt, set_slotOf_getElem_of_ne (by omega) _ (by omega)]

/-- A tree that was read stands at the first slot it took, its nodes in pre-order (R243, R244). -/
theorem rebuilt_treeAt (hroom : n + tree.nodeCount ≤ 513) :
    TreeAt (rebuilt tree n node) (slotOf n) tree (slotRun n tree.nodeCount) := by
  induction tree generalizing n node with
  | leaf sym => exact .leaf (Vector.getElem_set_self _)
  | node l r ihl ihr =>
    have hnodes : n + (l.nodeCount + r.nodeCount + 1) ≤ 513 := hroom
    rw [CodeTree.nodeCount, slotRun_node]
    refine .internal (Vector.getElem_set_self _) ((ihl (node := node) (by omega)).congr fun j hj => ?_)
      ((ihr (node := rebuilt l (n + 1) node) (by omega)).congr fun j hj => ?_)
    · exact rebuilt_node_getElem_left hroom ((mem_slotRun (by omega)).1 hj)
    · exact rebuilt_node_getElem_right ((mem_slotRun (by omega)).1 hj).1

/-- Every node that was read has weight 0 (R243). -/
theorem rebuilt_weightOf (hroom : n + tree.nodeCount ≤ 513) (hj : j ∈ slotRun n tree.nodeCount) :
    weightOf (rebuilt tree n node)[j.val] = 0 := by
  induction tree generalizing n node with
  | leaf sym =>
    obtain rfl : j = slotOf n := by simpa [slotRun, CodeTree.nodeCount] using hj
    rw [rebuilt, Vector.getElem_set_self, weightOf]
  | node l r ihl ihr =>
    have hnodes : n + (l.nodeCount + r.nodeCount + 1) ≤ 513 := hroom
    rw [CodeTree.nodeCount, slotRun_node, List.mem_cons, List.mem_append] at hj
    rcases hj with rfl | hj | hj
    · rw [rebuilt, Vector.getElem_set_self, weightOf]
    · rw [rebuilt_node_getElem_left hroom ((mem_slotRun (by omega)).1 hj), ihl (by omega) hj]
    · rw [rebuilt_node_getElem_right ((mem_slotRun (by omega)).1 hj).1, ihr (by omega) hj]

end

section
variable {tree : CodeTree} (h : tree.nodeCount ≤ 513) (node : Vector Node 513)
include h

/-- A walk from slot 0 finds the tree that was read there, in the slots it took. -/
theorem rebuilt_walk :
    treeOf (rebuilt tree 0 node) walkFuel 0 = some tree ∧
      slotsOf (rebuilt tree 0 node) walkFuel 0 = slotRun 0 tree.nodeCount := by
  have hleaves := nodeCount_succ tree
  exact (rebuilt_treeAt (n := 0) (by omega)).walk (fuel := walkFuel) (by unfold walkFuel; omega)

theorem holdsRebuilt_rebuilt : HoldsRebuilt tree (rebuilt tree 0 node) := by
  obtain ⟨htree, hslots⟩ := rebuilt_walk h node
  refine ⟨htree, fun i hi => rebuilt_weightOf (by omega) ?_⟩
  rwa [← hslots]

end

end Sys2Proof.Machine
end

section
/-! Reading a header (R243, R244), and the round trip of a header between the two commands (R246). -/

namespace Sys2Proof.Machine

/-! ### HC_READ -/

section
variable {s : State} {tree : CodeTree} {rest : Bits}

/-- `read_header()` of a header whose tree fits the node memory (R243). -/
theorem readHeaderTokens_run (hu : s.unread = s.magicBits ++ tree.tokens ++ rest) (hnodes : tree.nodeCount ≤ 513) :
    readHeaderTokens.run ⟨s, none⟩ = .ok ()
      ⟨{ s with node := rebuilt tree 0 s.node, root := 0, nleaves := tree.leafCount, nnodes := tree.nodeCount,
                src := { s.src with pos := s.src.pos + 32 + tree.tokens.length },
                work := { s.work with slots := tree.nodeCount, hdrBits := 32 + tree.tokens.length } }, none⟩ := by
  rw [List.append_assoc] at hu
  have htree : (setSrcPos (s.src.pos + 32) s).unread = tree.tokens ++ rest := unread_setSrcPos hu (natToBits_length ..)
  have hmagic : BitVec.ofNat 32 (s.build.hdrMagic.toNat % 2 ^ 32) = s.build.hdrMagic := by
    rw [Nat.mod_eq_of_lt s.build.hdrMagic.isLt, BitVec.ofNat_toNat, BitVec.setWidth_eq]
  have hparse := parse_run (fuel := parseFuel) (rest := rest)
    (s := { setSrcPos (s.src.pos + 32) s with nleaves := 0, work := { s.work with slots := 0, hdrBits := 32 } })
    htree ((Nat.zero_add _).trans_le hnodes) (by unfold parseFuel; omega)
  rw [readHeaderTokens, bind_of_ok (srcRead_field hu), bind_of_ok (getState_run _)]
  rw [hmagic, setSrcPos_build, if_neg (not_not_intro rfl), bind_of_ok (modState_run ..)]
  refine (bind_of_ok hparse).trans ?_
  simp only [modState_run, parsed, Nat.zero_add]
  rfl

/-- What HC_READ and DEC_DECOMPRESS share, on a header whose tree fits the node memory (R243, R280). -/
theorem readHeader_run (hu : s.unread = s.magicBits ++ tree.tokens ++ rest) (hnodes : tree.nodeCount ≤ 513) :
    readHeader.run ⟨s, none⟩ = .ok ()
      ⟨{ s.afterHeader tree (rebuilt tree 0 s.node) with
          work := { s.work with slots := tree.nodeCount, hdrBits := 32 + tree.tokens.length } }, none⟩ := by
  rw [readHeader, bind_of_ok (modState_run ..), bind_run, unspecifiedOnError_run,
    readHeaderTokens_run (s := putNothingValid s) hu hnodes]
  rfl

/-- HC_READ of a header whose tree fits the node memory (R243, R244). -/
theorem exec_hcRead (hu : s.unread = s.magicBits ++ tree.tokens ++ rest) (hnodes : tree.nodeCount ≤ 513) :
    exec .hcRead s = .next (done
      { s.afterHeader tree (rebuilt tree 0 s.node) with result0 := BitVec.ofNat 32 (11 * tree.leafCount + 31),
                                                        result1 := BitVec.ofNat 32 tree.leafCount }) := by
  rw [exec_of_ok (i := .hcRead) ((bind_of_ok (readHeader_run hu hnodes)).trans (modState_run ..)),
    ← header_length]
  rfl

end

/-! ### The trees that HC_WRITE sends -/

/-- What a walk finds stands in the node memory, in the slots that the walk reaches. -/
theorem treeAt_of_treeOf {node : Vector Node 513} {fuel : Nat} {i : Slot} {tree : CodeTree}
    (h : treeOf node fuel i = some tree) : TreeAt node i tree (slotsOf node fuel i) := by
  induction fuel generalizing i tree with
  | zero => cases h
  | succ fuel ih =>
    unfold treeOf at h
    cases hn : node[i.val] with
    | leaf sym w =>
      simp only [hn, Option.some.injEq] at h
      subst h
      simpa only [slotsOf, hn] using TreeAt.leaf hn
    | internal x y w =>
      simp only [hn] at h
      split at h
      · rename_i l r hl hr
        cases h
        simpa only [slotsOf, hn] using TreeAt.internal hn (ih hl) (ih hr)
      · cases h

theorem TreeAt.slots_length {node : Vector Node 513} {i : Slot} {tree : CodeTree} {slots : List Slot}
    (h : TreeAt node i tree slots) : slots.length = tree.nodeCount := by
  induction h with
  | leaf _ => rfl
  | internal _ _ _ ihl ihr => rw [List.length_cons, List.length_append, ihl, ihr, CodeTree.nodeCount]

/-- A valid tree has no more nodes than there are slots, because it takes none twice (R46). -/
theorem nodeCount_le_of_treeInv {s : State} {tree : CodeTree} (hinv : s.treeInv) (hvalid : s.status.treeValid = true)
    (htree : s.tree = some tree) : tree.nodeCount ≤ 513 := by
  obtain ⟨-, -, hnodup, -⟩ := hinv hvalid
  rw [← (treeAt_of_treeOf htree).slots_length]
  exact hnodup.length_le_card.trans_eq (Fintype.card_fin 513)

/-- Settles O41: HC_WRITE sends the magic and the tree's token, and that is a header HC_READ rebuilds the tree from. -/
theorem headerRoundTrip : Obligations.HeaderRoundTrip := by
  intro s₁ tree hinv hvalid htree
  have hnodes := nodeCount_le_of_treeInv hinv hvalid htree
  refine ⟨_, s₁.magicBits ++ tree.tokens, exec_hcWrite hvalid htree, List.append_assoc .., ?_⟩
  intro s₂ rest hmagic hu
  have hheader : s₂.unread = s₂.magicBits ++ tree.tokens ++ rest := by
    rw [hu, State.magicBits, State.magicBits, hmagic]
  obtain ⟨hrebuilt, hweights⟩ := holdsRebuilt_rebuilt hnodes s₂.node
  exact ⟨_, exec_hcRead hheader hnodes, rfl, rfl, hrebuilt, hweights, rfl⟩

end Sys2Proof.Machine
end

section
/-! The decoder's walk down the tree (R280): the bits of a code lead from the root to the code's leaf, so an archive's
body decodes to its symbols. -/

namespace Sys2Proof.Machine

/-! ### Codes and subtrees -/

/-- The empty code is that of a tree's only leaf (R203). -/
theorem eq_leaf_of_nil_mem_codes {tree : CodeTree} {sym : BitVec 9} (h : (sym, []) ∈ tree.codes) :
    tree = .leaf sym := by
  cases tree with
  | leaf sym' => simpa [eq_comm] using h
  | node l r => simp at h

/-- A code's first bit names the child that the rest of it starts from. -/
theorem mem_codes_cons {tree : CodeTree} {sym : BitVec 9} {b : Bool} {path : Bits}
    (h : (sym, b :: path) ∈ tree.codes) :
    ∃ l r, tree = .node l r ∧ (sym, path) ∈ (if b then r else l).codes := by
  cases tree with
  | leaf sym' => simp at h
  | node l r => exact ⟨l, r, rfl, by cases b <;> simpa using h⟩

/-- The child that a bit leads to holds the subtree on that side (R280). -/
theorem TreeAt.child {node : Vector Node 513} {i : Slot} {l r : CodeTree} {slots : List Slot}
    (h : TreeAt node i (.node l r) slots) (b : Bool) :
    ∃ slots', TreeAt node (childOf node i b.toNat) (if b then r else l) slots' := by
  cases h with
  | @internal _ x y _ _ _ xs ys hi hl hr =>
    cases b
    · exact ⟨xs, by simpa [childOf, hi] using hl⟩
    · exact ⟨ys, by simpa [childOf, hi] using hr⟩

/-! ### One bit -/

/-- A bit that stands next on SRC is what is read (R80). -/
theorem srcRead_bit {s : State} {b : Bool} {rest : Bits} (h : s.unread = b :: rest) :
    (srcRead 1).run ⟨s, none⟩ = .ok (some b.toNat) ⟨setSrcPos (s.src.pos + 1) s, none⟩ := by
  have hfield : s.unread = natToBits 1 b.toNat ++ rest := by rw [h, natToBits_one_bool, List.singleton_append]
  rw [srcRead_field hfield, pow_one, Nat.mod_eq_of_lt (Bool.toNat_lt b)]

/-- The machine with bits of SRC read and the walker at a slot. -/
def walkedTo (i : Slot) (n : Nat) (s : State) : State := setWalker i (setSrcPos (s.src.pos + n) s)

theorem walkedTo_unread {s : State} {a rest : Bits} (i : Slot) (h : s.unread = a ++ rest) :
    (walkedTo i a.length s).unread = rest :=
  unread_setSrcPos h rfl

section
variable {s : State} {b : Bool} {rest : Bits} (hu : s.unread = b :: rest) (fuel : Nat)
include hu

/-- A bit that leads to an inner node is a step of the walk (R280). -/
theorem decodeLoop_step {x y : Slot} {w : BitVec 41}
    (hn : s.node[(childOf s.node s.work.walker b.toNat).val] = .internal x y w) :
    (decodeLoop (fuel + 1)).run ⟨s, none⟩ =
      (decodeLoop fuel).run ⟨walkedTo (childOf s.node s.work.walker b.toNat) 1 s, none⟩ := by
  simp [decodeLoop, srcRead_bit hu, hn, walkedTo]

/-- A bit that leads to the sentinel's leaf is the body's last (R280). -/
theorem decodeLoop_sentinel {w : BitVec 41}
    (hn : s.node[(childOf s.node s.work.walker b.toNat).val] = .leaf 256 w) :
    (decodeLoop (fuel + 1)).run ⟨s, none⟩ = .ok () ⟨walkedTo (childOf s.node s.work.walker b.toNat) 1 s, none⟩ := by
  simp [decodeLoop, srcRead_bit hu, hn, walkedTo]

/-- A bit that leads to an ordinary symbol's leaf has the symbol written and counted, and the walk starts again
(R280). -/
theorem decodeLoop_symbol {sym : BitVec 9} {w : BitVec 41} (hsym : sym.toNat < 256)
    (hroom : s.work.symbols ≠ 2 ^ 61 - 1)
    (hn : s.node[(childOf s.node s.work.walker b.toNat).val] = .leaf sym w) :
    (decodeLoop (fuel + 1)).run ⟨s, none⟩ = (decodeLoop fuel).run
      ⟨setWalker s.root (setSymbols (s.work.symbols + 1) (appendSnk (natToBits 8 sym.toNat)
        (walkedTo (childOf s.node s.work.walker b.toNat) 1 s))), none⟩ := by
  have hne : sym ≠ 256#9 := by rintro rfl; simp at hsym
  have hle : ¬ 256 < sym.toNat := by omega
  have hroom' : s.work.symbols ≠ 2305843009213693951 := hroom
  simp [decodeLoop, srcRead_bit hu, hn, hne, hle, hroom', walkedTo]

end

/-! ### One code -/

/-- All bits of a code but the last lead to the parent of the code's leaf. -/
theorem decodeLoop_toLastBit {s : State} {tree : CodeTree} {slots : List Slot} {sym : BitVec 9} {path rest : Bits}
    {b : Bool} (htree : TreeAt s.node s.work.walker tree slots) (hp : (sym, path ++ [b]) ∈ tree.codes)
    (hu : s.unread = path ++ b :: rest) (fuel : Nat) :
    ∃ i w, s.node[(childOf s.node i b.toNat).val] = .leaf sym w ∧
      (decodeLoop (path.length + fuel)).run ⟨s, none⟩ = (decodeLoop fuel).run ⟨walkedTo i path.length s, none⟩ := by
  induction path generalizing s tree slots with
  | nil =>
    obtain ⟨l, r, rfl, hchild⟩ := mem_codes_cons hp
    obtain ⟨slots', hat⟩ := htree.child b
    rw [eq_leaf_of_nil_mem_codes hchild] at hat
    cases hat with
    | leaf hleaf => exact ⟨_, _, hleaf, by simp [walkedTo, setWalker, setSrcPos]⟩
  | cons c path ih =>
    obtain ⟨l, r, rfl, hchild⟩ := mem_codes_cons hp
    obtain ⟨slots', hat⟩ := htree.child c
    generalize (if c then r else l) = child at hchild hat
    obtain ⟨i, w, hleaf, hrun⟩ := ih (s := walkedTo (childOf s.node s.work.walker c.toNat) 1 s) hat hchild
      (walkedTo_unread (a := [c]) _ hu)
    have hinner : ∃ x y w, s.node[(childOf s.node s.work.walker c.toNat).val] = .internal x y w := by
      cases hat with
      | leaf => simp at hchild
      | internal hn => exact ⟨_, _, _, hn⟩
    obtain ⟨x, y, w', hn⟩ := hinner
    refine ⟨i, w, hleaf, ?_⟩
    rw [List.length_cons, Nat.add_right_comm, decodeLoop_step hu _ hn, hrun]
    simp [walkedTo, setWalker, setSrcPos, Nat.add_assoc, Nat.add_comm 1]

/-- The decoder after the codes of some symbols were read: the symbols are written and counted, and the walk starts
again (R280). -/
def decoded (body : List (BitVec 9 × Bits)) (s : State) : State :=
  { s.streamed (body.flatMap fun p => natToBits 8 p.1.toNat) (body.flatMap Prod.snd).length with
    work := { s.work with walker := s.root, symbols := s.work.symbols + body.length } }

theorem decoded_nil {s : State} (h : s.work.walker = s.root) : decoded [] s = s := by
  have hwork : { s.work with walker := s.root } = s.work := by rw [← h]
  simp [decoded, State.streamed, hwork]

theorem decoded_cons (p : BitVec 9 × Bits) (body : List (BitVec 9 × Bits)) (s : State) :
    decoded body (decoded [p] s) = decoded (p :: body) s := by
  simp [decoded, State.streamed, Nat.add_assoc, Nat.add_comm 1]

theorem decoded_unread {s : State} {body : List (BitVec 9 × Bits)} {rest : Bits}
    (h : s.unread = body.flatMap Prod.snd ++ rest) : (decoded body s).unread = rest :=
  unread_setSrcPos h rfl

section
variable {s : State} {l r : CodeTree} {slots : List Slot} (htree : TreeAt s.node s.root (.node l r) slots)
  (hwalker : s.work.walker = s.root)
include htree hwalker

/-- The sentinel's code ends the body (R280). -/
theorem decodeLoop_last {last rest : Bits} (hlast : (256, last) ∈ (CodeTree.node l r).codes)
    (hu : s.unread = last ++ rest) (fuel : Nat) :
    ∃ i, (decodeLoop (last.length + fuel)).run ⟨s, none⟩ = .ok () ⟨walkedTo i last.length s, none⟩ := by
  rcases List.eq_nil_or_concat last with rfl | ⟨path, b, rfl⟩
  · cases eq_leaf_of_nil_mem_codes hlast
  rw [List.concat_eq_append] at *
  rw [List.append_assoc, List.singleton_append] at hu
  obtain ⟨i, w, hleaf, hrun⟩ := decodeLoop_toLastBit (hwalker ▸ htree) hlast hu (fuel + 1)
  refine ⟨childOf s.node i b.toNat, ?_⟩
  rw [List.length_append, List.length_singleton, Nat.add_assoc, Nat.add_comm 1, hrun]
  rw [decodeLoop_sentinel (s := walkedTo i path.length s) (walkedTo_unread i hu) fuel hleaf]
  simp [walkedTo, setWalker, setSrcPos, Nat.add_assoc]

/-- The code of an ordinary symbol decodes to the symbol (R280). -/
theorem decodeLoop_code {p : BitVec 9 × Bits} {rest : Bits} (hp : p ∈ (CodeTree.node l r).codes)
    (hsym : p.1.toNat < 256) (hroom : s.work.symbols ≠ 2 ^ 61 - 1) (hu : s.unread = p.2 ++ rest) (fuel : Nat) :
    (decodeLoop (p.2.length + fuel)).run ⟨s, none⟩ = (decodeLoop fuel).run ⟨decoded [p] s, none⟩ := by
  obtain ⟨sym, path⟩ := p
  rcases List.eq_nil_or_concat path with rfl | ⟨path, b, rfl⟩
  · cases eq_leaf_of_nil_mem_codes hp
  rw [List.concat_eq_append] at *
  rw [List.append_assoc, List.singleton_append] at hu
  obtain ⟨i, w, hleaf, hrun⟩ := decodeLoop_toLastBit (hwalker ▸ htree) hp hu (fuel + 1)
  rw [List.length_append, List.length_singleton, Nat.add_assoc, Nat.add_comm 1, hrun]
  rw [decodeLoop_symbol (s := walkedTo i path.length s) (walkedTo_unread i hu) fuel hsym hroom hleaf]
  simp [walkedTo, setWalker, setSrcPos, setSymbols, appendSnk, decoded, State.streamed, Nat.add_assoc]

/-! ### A body -/

/-- The codes of ordinary symbols, one after the other, decode to the symbols (R280). -/
theorem decodeLoop_codes {body : List (BitVec 9 × Bits)} {rest : Bits}
    (hbody : ∀ p ∈ body, p ∈ (CodeTree.node l r).codes ∧ p.1.toNat < 256)
    (hroom : s.work.symbols + body.length < 2 ^ 61) (hu : s.unread = body.flatMap Prod.snd ++ rest) (fuel : Nat) :
    (decodeLoop ((body.flatMap Prod.snd).length + fuel)).run ⟨s, none⟩ =
      (decodeLoop fuel).run ⟨decoded body s, none⟩ := by
  induction body generalizing s with
  | nil => simp [decoded_nil hwalker]
  | cons p body ih =>
    obtain ⟨⟨hp, hsym⟩, hbody⟩ := List.forall_mem_cons.1 hbody
    rw [List.length_cons] at hroom
    rw [List.flatMap_cons, List.append_assoc] at hu
    rw [List.flatMap_cons, List.length_append, Nat.add_assoc,
      decodeLoop_code htree hwalker hp hsym (by omega) hu, ← decoded_cons p body]
    refine ih (s := decoded [p] s) htree rfl hbody ?_ (decoded_unread (by simpa using hu))
    simp only [decoded, List.length_singleton]
    omega

end

theorem srcLeft_eq_unread_length (s : State) : srcLeft s = s.unread.length := by
  rw [srcLeft, State.unread, List.length_drop]

/-- The decoder before the first bit of a body (R280). -/
def atBodyStart (s : State) : State := setWalker s.root (setSymbols 0 s)

/-- The sentinel's leaf at the root ends the body before its first bit (R281). -/
theorem decodeBody_sentinel {s : State} {w : BitVec 41} (hn : s.node[s.root.val] = .leaf 256 w) :
    decodeBody.run ⟨s, none⟩ = .ok () ⟨atBodyStart s, none⟩ := by
  simp [decodeBody, atBodyStart, hn]

theorem decodeBody_internal {s : State} {x y : Slot} {w : BitVec 41} (hn : s.node[s.root.val] = .internal x y w) :
    decodeBody.run ⟨s, none⟩ = (decodeLoop (s.unread.length + 1)).run ⟨atBodyStart s, none⟩ := by
  have hleft : srcLeft (atBodyStart s) = s.unread.length := srcLeft_eq_unread_length s
  simp [decodeBody, ← hleft, atBodyStart, hn]

section
variable {s : State} {tree : CodeTree} {body : List (BitVec 9 × Bits)} {last rest : Bits}
  (hbody : ∀ p ∈ body, p ∈ tree.codes ∧ p.1.toNat < 256) (hlast : (256, last) ∈ tree.codes)
  (hcount : body.length < 2 ^ 61)
include hbody hlast hcount

/-- The body of an archive decodes to its symbols; the tree of the sentinel alone has no body (R280, R281). -/
theorem decodeBody_run {slots : List Slot} (htree : TreeAt s.node s.root tree slots)
    (hu : s.unread = body.flatMap Prod.snd ++ (last ++ rest)) :
    ∃ work, work.symbols = body.length ∧ decodeBody.run ⟨s, none⟩ = .ok ()
      ⟨{ s.streamed (body.flatMap fun p => natToBits 8 p.1.toNat) ((body.flatMap Prod.snd).length + last.length) with
          work := work }, none⟩ := by
  cases htree with
  | @leaf _ sym w hn =>
    simp only [codes_leaf, List.mem_singleton, Prod.mk.injEq] at hbody hlast
    obtain ⟨rfl, rfl⟩ := hlast
    have hnil : body = [] := List.eq_nil_iff_forall_not_mem.2 fun p hp => by
      obtain ⟨rfl, hlt⟩ := hbody p hp
      simp at hlt
    refine ⟨(atBodyStart s).work, by rw [hnil]; rfl, (decodeBody_sentinel hn).trans ?_⟩
    simp [hnil, atBodyStart, State.streamed, setWalker, setSymbols]
  | @internal _ x y w l r xs ys hn hl hr =>
    have hat : TreeAt (atBodyStart s).node (atBodyStart s).root (.node l r) (s.root :: (xs ++ ys)) :=
      .internal hn hl hr
    have hroom : (atBodyStart s).work.symbols + body.length < 2 ^ 61 := (Nat.zero_add _).trans_lt hcount
    have hfuel : s.unread.length + 1 = (body.flatMap Prod.snd).length + (last.length + (rest.length + 1)) := by
      rw [hu, List.length_append, List.length_append]
      omega
    have hcodes := decodeLoop_codes hat rfl hbody hroom hu (last.length + (rest.length + 1))
    obtain ⟨i, hend⟩ := decodeLoop_last (s := decoded body (atBodyStart s)) hat rfl hlast (decoded_unread hu)
      (rest.length + 1)
    refine ⟨{ (decoded body (atBodyStart s)).work with walker := i }, Nat.zero_add _, ?_⟩
    rw [decodeBody_internal hn, hfuel, hcodes, hend]
    simp [walkedTo, decoded, atBodyStart, State.streamed, setWalker, setSymbols, setSrcPos, Nat.add_assoc]

/-- DEC_DECOMPRESS of an archive writes its symbols, returns 8 bits for each, and stops after the sentinel's code
(R280). -/
theorem exec_decDecompress (hnodes : tree.nodeCount ≤ 513)
    (hu : s.unread = s.magicBits ++ tree.tokens ++ body.flatMap Prod.snd ++ last ++ rest) :
    exec .decDecompress s = .next (done
      { (s.afterHeader tree (rebuilt tree 0 s.node)).streamed (body.flatMap fun p => natToBits 8 p.1.toNat)
          ((body.flatMap Prod.snd).length + last.length) with
        result0 := BitVec.ofNat 32 (8 * body.length), result1 := BitVec.ofNat 32 (8 * body.length / 2 ^ 32) }) := by
  have hheader : s.unread = s.magicBits ++ tree.tokens ++ (body.flatMap Prod.snd ++ (last ++ rest)) := by
    simpa only [List.append_assoc] using hu
  have htree := rebuilt_treeAt (n := 0) (tree := tree) (node := s.node) (by omega)
  have hafter : ({ s.afterHeader tree (rebuilt tree 0 s.node) with
      work := { s.work with slots := tree.nodeCount, hdrBits := 32 + tree.tokens.length } } : State).unread =
      body.flatMap Prod.snd ++ (last ++ rest) := by
    have hlen : (s.magicBits ++ tree.tokens).length = 32 + tree.tokens.length := by
      rw [List.length_append, State.magicBits, natToBits_length]
    have := unread_setSrcPos hheader hlen
    rwa [← Nat.add_assoc] at this
  obtain ⟨work, hsymbols, hrun⟩ := decodeBody_run hbody hlast hcount htree hafter
  rw [exec_of_ok (i := .decDecompress)
    ((bind_of_ok (readHeader_run hheader hnodes)).trans ((bind_of_ok hrun).trans (modState_run ..)))]
  simp only [hsymbols]
  rfl

end

end Sys2Proof.Machine
end

section
/-! The counter's pass over an input of symbols in range (R186): it ends with their counts, or in CountOverflow where
they are more than TOTAL can hold. -/

namespace Sys2Proof.Machine

/-! ### The counts of a list of symbols -/

theorem inRange_eq_self {vs : List Nat} (h : ∀ v ∈ vs, v < 256) : inRange vs = vs :=
  List.filter_eq_self.2 fun v hv => decide_eq_true (h v hv)

theorem outOfRange_eq_nil {vs : List Nat} (h : ∀ v ∈ vs, v < 256) : outOfRange vs = [] :=
  List.filter_eq_nil_iff.2 fun v hv => by have := h v hv; simpa using this

theorem countsOf_concat (vs : List Nat) (v : Fin 256) :
    (countsOf vs).set v.val ((countsOf vs)[v.val] + 1) = countsOf (vs ++ [v.val]) := by
  refine Vector.ext fun i hi => ?_
  rw [Vector.getElem_set]
  simp only [countsOf, Vector.getElem_ofFn, List.count_append, List.count_singleton]
  split
  case isTrue h => simp [h, BitVec.ofNat_add]
  case isFalse h => simp [h]

/-- Before the first symbol (R186). -/
theorem clearCounts_eq_counted (s : State) : clearCounts s = s.counted [] s.src.pos := by
  have hzero : Vector.replicate 256 0 = countsOf [] := Vector.ext fun i hi => by simp [countsOf]
  rw [clearCounts, hzero]
  rfl

/-- One symbol more is counted (R186). -/
theorem bumpCount_counted (s : State) {vs : List Nat} {v : Nat} (hvs : ∀ x ∈ vs, x < 256) (hv : v < 256) (p : Nat) :
    bumpCount ⟨v, hv⟩ (s.counted vs p) = s.counted (vs ++ [v]) p := by
  have hvs' : ∀ x ∈ vs ++ [v], x < 256 := List.forall_mem_append.2 ⟨hvs, List.forall_mem_singleton.2 hv⟩
  simp only [bumpCount, setFreq, State.counted, inRange_eq_self hvs, inRange_eq_self hvs', outOfRange_eq_nil hvs,
    outOfRange_eq_nil hvs', ← countsOf_concat vs ⟨v, hv⟩, List.length_append, List.length_singleton, BitVec.ofNat_add]
  rfl

/-! ### The loop -/

/-- Fewer bits than a symbol has are left: the input ends (R186). -/
theorem countLoop_end {s : State} (h : s.unread.length < s.build.symInW) (fuel : Nat) :
    (countLoop (fuel + 1)).run ⟨s, none⟩ = .ok () ⟨setSrcPos s.src.bits.length s, none⟩ := by
  rw [countLoop_turn, srcLeft_eq_unread_length, if_neg (Nat.not_le.2 h)]

/-- A field of SYM_IN_W bits has room for every symbol in range (R42). -/
theorem lt_two_pow_symInW (s : State) {v : Nat} (hv : v < 256) : v < 2 ^ s.build.symInW :=
  hv.trans_le (Nat.pow_le_pow_right two_pos (Nat.le_add_left 8 _))

/-- A symbol that stands next on SRC is the one that is counted (R186). -/
theorem countLoop_symbol {s : State} {v : Nat} {rest : Bits} (hv : v < 256)
    (hu : s.unread = natToBits s.build.symInW v ++ rest) (fuel : Nat) :
    (countLoop (fuel + 1)).run ⟨s, none⟩ =
      (countSymbol v >>= fun _ => countLoop fuel).run ⟨setSrcPos (s.src.pos + s.build.symInW) s, none⟩ := by
  rw [countLoop, bind_of_ok (getState_run _), bind_of_ok (srcRead_field hu),
    Nat.mod_eq_of_lt (lt_two_pow_symInW s hv)]

/-- The counting loop with the symbols vs counted before and the symbols ws to come (R186). -/
theorem countLoop_run (s : State) {vs ws : List Nat} {p fuel : Nat} {rest : Bits} (hvs : ∀ v ∈ vs, v < 256)
    (hws : ∀ v ∈ ws, v < 256) (hroom : vs.length < 2 ^ 32)
    (hu : s.src.bits.drop p = ws.flatMap (natToBits s.build.symInW) ++ rest) (hrest : rest.length < s.build.symInW)
    (hfuel : ws.length < fuel) :
    ((vs ++ ws).length < 2 ^ 32 ∧ (countLoop fuel).run ⟨s.counted vs p, none⟩ =
      .ok () ⟨s.counted (vs ++ ws) s.src.bits.length, none⟩) ∨
    ∃ r, (countLoop fuel).run ⟨s.counted vs p, none⟩ = .error (.raised .countOverflow 0) r := by
  obtain ⟨fuel, rfl⟩ := Nat.exists_eq_succ_of_ne_zero (Nat.ne_zero_of_lt hfuel)
  induction ws generalizing vs p fuel with
  | nil =>
    rw [List.append_nil]
    refine .inl ⟨hroom, countLoop_end ?_ fuel⟩
    change (s.src.bits.drop p).length < s.build.symInW
    rwa [hu]
  | cons v ws ih =>
    obtain ⟨hv, hws⟩ := List.forall_mem_cons.1 hws
    rw [List.length_cons] at hfuel
    rw [List.flatMap_cons, List.append_assoc] at hu
    have hnext : s.src.bits.drop (p + s.build.symInW) = ws.flatMap (natToBits s.build.symInW) ++ rest :=
      unread_setSrcPos (s := s.counted vs p) hu (natToBits_length ..)
    rw [countLoop_symbol (s := s.counted vs p) hv hu]
    have hturn : setSrcPos ((s.counted vs p).src.pos + (s.counted vs p).build.symInW) (s.counted vs p) =
        s.counted vs (p + s.build.symInW) := rfl
    rw [hturn]
    by_cases hfull : (s.counted vs (p + s.build.symInW)).total = countMax
    · exact .inr ⟨_, bind_of_error (countSymbol_overflow (.inl ⟨hv, hfull⟩))⟩
    · have hmore : (vs ++ [v]).length < 2 ^ 32 := by
        rw [eq_countMax_iff] at hfull
        simp only [State.counted, inRange_eq_self hvs, BitVec.toNat_ofNat, Nat.mod_eq_of_lt hroom] at hfull
        rw [List.length_append, List.length_singleton]
        omega
      rw [bind_of_ok (countSymbol_inRange hv hfull), bumpCount_counted s hvs hv]
      obtain ⟨fuel, rfl⟩ := Nat.exists_eq_succ_of_ne_zero (by omega : fuel ≠ 0)
      have hvs' : ∀ x ∈ vs ++ [v], x < 256 := List.forall_mem_append.2 ⟨hvs, List.forall_mem_singleton.2 hv⟩
      simpa using ih hvs' hws hmore hnext fuel (by omega)

/-- The fields of w bits that spell some values are as many bits as there are values, and w for each. -/
theorem flatMap_natToBits_length (w : Nat) (vs : List Nat) : (vs.flatMap (natToBits w)).length = vs.length * w := by
  simp [List.length_flatMap]

/-- A loop that reads one symbol a turn has fuel for all that SRC holds. -/
theorem length_lt_fuel {s : State} {vs : List Nat} {rest : Bits}
    (hu : s.unread = vs.flatMap (natToBits s.build.symInW) ++ rest) : vs.length < srcLeft s + 1 := by
  have hpos : 1 ≤ s.build.symInW := Nat.le_add_left ..
  have := Nat.le_mul_of_pos_right vs.length hpos
  rw [srcLeft_eq_unread_length, hu, List.length_append, flatMap_natToBits_length]
  omega

/-- `count_pass()` on symbols in range (R186). -/
theorem countPass_run (s : State) {vs : List Nat} {rest : Bits} (hvs : ∀ v ∈ vs, v < 256)
    (hu : s.unread = vs.flatMap (natToBits s.build.symInW) ++ rest) (hrest : rest.length < s.build.symInW) :
    (vs.length < 2 ^ 32 ∧ countPass.run ⟨s, none⟩ = .ok () ⟨s.counted vs s.src.bits.length, none⟩) ∨
    ∃ r, countPass.run ⟨s, none⟩ = .error (.raised .countOverflow 0) r := by
  rw [countPass, bind_of_ok (modState_run ..), bind_of_ok (getState_run _)]
  simp only [clearCounts_eq_counted]
  exact countLoop_run s (vs := []) (by simp) hvs (by simp) hu hrest (length_lt_fuel hu)

end Sys2Proof.Machine
end

section
/-! Pass 1 of a compress (R260): the tree of the counts and its code table, which has a code for every symbol that was
counted. -/

namespace Sys2Proof.Machine

/-! ### Filling the code table -/

/-- The code table of some leaves, each with its path (R47). -/
def codeTable (leaves : List (BitVec 9 × Bits)) : Vector CodeEntry 257 :=
  Vector.ofFn fun i =>
    (((leaves.find? fun p => p.1 == BitVec.ofNat 9 i.val).map Prod.snd).map entryOfPath).getD noCode

theorem codeTable_nil : codeTable [] = Vector.replicate 257 noCode := Vector.ext fun i hi => by simp [codeTable]

theorem codeTable_codes (tree : CodeTree) : codeTable tree.codes = tree.table :=
  Vector.ext fun i hi => by rw [codeTable, Vector.getElem_ofFn, table_getElem tree ⟨i, hi⟩]; rfl

/-- The leaf that is recorded next, its symbol being a new one (R221). -/
theorem codeTable_concat {leaves : List (BitVec 9 × Bits)} {sym : BitVec 9} (path : Bits) (hsym : sym.toNat < 257)
    (hnew : sym ∉ leaves.map Prod.fst) :
    (codeTable leaves)[sym.toNat] = noCode ∧
      (codeTable leaves).set sym.toNat (entryOfPath path) = codeTable (leaves ++ [(sym, path)]) := by
  have hfind : leaves.find? (fun p => p.1 == sym) = none :=
    List.find?_eq_none.2 fun p hp hpsym => hnew (List.mem_map.2 ⟨p, hp, by simpa using hpsym⟩)
  refine ⟨by simp [codeTable, hfind], Vector.ext fun i hi => ?_⟩
  rw [Vector.getElem_set]
  simp only [codeTable, Vector.getElem_ofFn, List.find?_append, List.find?_singleton]
  split
  case isTrue h => simp [← h, hfind]
  case isFalse h =>
    have hne : sym ≠ BitVec.ofNat 9 i := by
      rintro rfl
      rw [BitVec.toNat_ofNat, Nat.mod_eq_of_lt (by omega)] at h
      exact h rfl
    simp [hne]

/-- Leaves with different symbols, all within the code table, are recorded one after the other (R221). -/
theorem recordAll_run (s : State) {before leaves : List (BitVec 9 × Bits)}
    (hnodup : ((before ++ leaves).map Prod.fst).Nodup) (hsyms : ∀ p ∈ leaves, p.1.toNat < 257) :
    (recordAll leaves).run ⟨{ s with code := codeTable before }, none⟩ =
      .ok () ⟨{ s with code := codeTable (before ++ leaves) }, none⟩ := by
  induction leaves generalizing before with
  | nil => simp [recordAll]
  | cons p leaves ih =>
    obtain ⟨hp, hsyms⟩ := List.forall_mem_cons.1 hsyms
    have hnew : p.1 ∉ before.map Prod.fst := by
      obtain ⟨-, -, hdisjoint⟩ := List.nodup_append.1 (List.map_append ▸ hnodup)
      exact fun hmem => hdisjoint _ hmem _ List.mem_cons_self rfl
    obtain ⟨habsent, hset⟩ := codeTable_concat p.2 hp hnew
    have hrecord : (recordCode p.1 p.2).run ⟨{ s with code := codeTable before }, none⟩ =
        .ok () ⟨{ s with code := codeTable (before ++ [p]) }, none⟩ := by
      simp [recordCode, hp, habsent, noCode, setCode, hset]
    rw [recordAll, bind_of_ok hrecord]
    simpa using ih (before := before ++ [p]) (by simpa using hnodup) hsyms

/-- CODE is filled with the table of a tree whose leaves have different symbols (R220). -/
theorem fillCode_run {s : State} {tree : CodeTree} (htree : s.tree = some tree) (hnodup : tree.symbols.Nodup)
    (hsyms : ∀ sym ∈ tree.symbols, sym.toNat < 257) :
    fillCode.run ⟨s, none⟩ = .ok () ⟨{ s with code := tree.table }, none⟩ := by
  rw [fillCode, bind_of_ok (modState_run ..), bind_of_ok (getState_run _), clearCode, ← codeTable_nil]
  have hvisit := visit_run (path := []) (r := ⟨{ s with code := codeTable [] }, none⟩) htree
  have hrecord := recordAll_run s (before := []) (leaves := tree.codes) hnodup
    fun p hp => hsyms _ (List.mem_map_of_mem hp)
  rw [List.nil_append, codeTable_codes] at hrecord
  exact hvisit.trans hrecord

/-! ### The symbols of the tree -/

/-- The symbols at the leaves are those with a count, and the sentinel (R201). -/
theorem treeSymbols_eq (freq : Vector Word 256) :
    treeSymbols freq = (countedSymbols freq).map (fun i => BitVec.ofNat 9 i.val) ++ [256] := by
  simp [treeSymbols, seedLeaves, Function.comp_def]

/-- Every leaf's symbol has an entry in CODE (R47, R201). -/
theorem treeSymbols_lt {freq : Vector Word 256} {sym : BitVec 9} (h : sym ∈ treeSymbols freq) : sym.toNat < 257 := by
  simp only [treeSymbols_eq, List.mem_append, List.mem_map, List.mem_singleton] at h
  rcases h with ⟨i, -, rfl⟩ | rfl
  · rw [BitVec.toNat_ofNat]
    omega
  · decide

/-- The leaves have different symbols (R201). -/
theorem treeSymbols_nodup (freq : Vector Word 256) : (treeSymbols freq).Nodup := by
  have hinj : Function.Injective fun i : Fin 256 => BitVec.ofNat 9 i.val := fun i j h =>
    Fin.castSucc_injective 256 (by_contra fun hne => codeSymbol_ne hne h)
  rw [treeSymbols_eq, List.nodup_append]
  refine ⟨((List.nodup_finRange 256).filter _).map hinj, List.nodup_singleton _, fun sym hsym last hlast => ?_⟩
  obtain ⟨i, -, rfl⟩ := List.mem_map.1 hsym
  rw [List.mem_singleton.1 hlast]
  exact codeSymbol_ne (Fin.castSucc_lt_last i).ne

/-- Every symbol that was counted has a leaf (R201). -/
theorem mem_treeSymbols_of_counted {vs : List Nat} (hlen : vs.length < 2 ^ 32) {v : Nat} (hv : v < 256)
    (hmem : v ∈ vs) :
    BitVec.ofNat 9 v ∈ treeSymbols (countsOf vs) := by
  rw [treeSymbols_eq]
  refine List.mem_append_left _ (List.mem_map.2 ⟨⟨v, hv⟩, List.mem_filter.2 ⟨List.mem_finRange _, ?_⟩, rfl⟩)
  have hpos : 0 < vs.count v := List.count_pos_iff.2 hmem
  have hle : vs.count v ≤ vs.length := List.count_le_length
  have hne : BitVec.ofNat 32 (vs.count v) ≠ 0 := by
    intro h
    have := congrArg BitVec.toNat h
    rw [BitVec.toNat_ofNat, Nat.mod_eq_of_lt (by omega)] at this
    exact hpos.ne' this
  simpa [countsOf] using hne

/-- A tree with a leaf for each counted symbol has a code for each symbol of the input (R260). -/
theorem mem_symbols_of_counted {tree : CodeTree} {vs : List Nat} (hperm : tree.symbols.Perm (treeSymbols (countsOf vs)))
    (hlen : vs.length < 2 ^ 32) (hvs : ∀ v ∈ vs, v < 256) : ∀ v ∈ vs, v < 256 ∧ BitVec.ofNat 9 v ∈ tree.symbols :=
  fun v hv => ⟨hvs v hv, hperm.mem_iff.2 (mem_treeSymbols_of_counted hlen (hvs v hv) hv)⟩

/-! ### Pass 1 -/

/-- The tree that the builder leaves, with a leaf for each symbol (R201, R205). -/
theorem storeTree_tree (s : State) :
    ∃ tree, (storeTree s).tree = some tree ∧ tree.symbols.Perm (treeSymbols s.freq) := by
  obtain ⟨tree, slots, htree, hperm, -⟩ := buildTree_treeAt s.freq s.node
  have hroot : (storeTree s).root = slotOf (2 * (treeSymbols s.freq).length - 2) := by
    simp only [storeTree, buildTree_cands, List.headD_cons]
  refine ⟨tree, ?_, hperm⟩
  rw [State.tree, hroot]
  exact (htree.walk (leafCount_le_walkFuel hperm)).1

/-- The tree in the node memory depends on nothing but the node memory and ROOT (R45). -/
theorem tree_congr {s t : State} (hnode : t.node = s.node) (hroot : t.root = s.root) : t.tree = s.tree := by
  rw [State.tree, State.tree, hnode, hroot]

/-- The machine with the tree of FREQ, its code table, and both valid (R260). -/
def coded (tree : CodeTree) (s : State) : State :=
  { storeTree s with status := s.status.withValid true true, code := tree.table }

theorem coded_tree (tree : CodeTree) (s : State) : (coded tree s).tree = (storeTree s).tree :=
  tree_congr (by rw [coded]) (by rw [coded])

/-- Pass 1 comes to this state by a flag, the tree, a flag, the table and a flag (R260). -/
theorem coded_eq (tree : CodeTree) (s : State) : coded tree s =
    putTableValid true { putTreeValid true (storeTree (putTableValid false s)) with code := tree.table } := by
  simp only [coded, storeTree, putTableValid, putTreeValid, Status.withValid]

/-- The flags before and after building are not part of the tree. -/
theorem flagged_tree (s : State) : (putTreeValid true (storeTree (putTableValid false s))).tree = (storeTree s).tree :=
  tree_congr (by rw [putTreeValid_node, storeTree, storeTree, putTableValid_node, putTableValid_freq])
    (by rw [putTreeValid_root, storeTree, storeTree, putTableValid_node, putTableValid_freq])

/-- Pass 1 on symbols in range: the counter takes them, and then nothing in the pass can fail (R260). -/
theorem compressPass1_run (s : State) {vs : List Nat} {rest : Bits} (hvs : ∀ v ∈ vs, v < 256)
    (hu : s.unread = vs.flatMap (natToBits s.build.symInW) ++ rest) (hrest : rest.length < s.build.symInW) :
    (vs.length < 2 ^ 32 ∧ ∃ tree u, u = coded tree ((setPass 1 s).counted vs s.src.bits.length) ∧
      u.tree = some tree ∧ tree.symbols.Perm (treeSymbols (countsOf vs)) ∧
      compressPass1.run ⟨s, none⟩ = .ok () ⟨setSizeResult (projectedBits u) u, none⟩) ∨
    ∃ r, compressPass1.run ⟨s, none⟩ = .error (.raised .countOverflow 0) r := by
  rw [compressPass1, bind_of_ok (modState_run ..)]
  rcases countPass_run (setPass 1 s) hvs hu hrest with ⟨hlen, hcount⟩ | ⟨r, hcount⟩
  case inr => exact .inr ⟨r, bind_of_error hcount⟩
  refine .inl ⟨hlen, ?_⟩
  obtain ⟨tree, htree, hperm⟩ := storeTree_tree ((setPass 1 s).counted vs s.src.bits.length)
  refine ⟨tree, _, rfl, (coded_tree ..).trans htree, hperm, (bind_of_ok hcount).trans ?_⟩
  have hfill := fillCode_run ((flagged_tree _).trans htree)
    (hperm.nodup_iff.2 (treeSymbols_nodup _)) fun sym hsym => treeSymbols_lt (hperm.subset hsym)
  refine (bind_of_ok (setTableValid_run ..)).trans <| (bind_of_ok (modState_run ..)).trans <|
    (bind_of_ok (setTreeValid_run ..)).trans <| (bind_of_ok hfill).trans <|
    (bind_of_ok (setTableValid_run ..)).trans ?_
  rw [modState_run, coded_eq]

end Sys2Proof.Machine
end

section
/-! Pass 2 of a compress (R260), and the round trip of the two stream commands (R265). -/

namespace Sys2Proof.Machine

/-! ### The body -/

/-- An entry of a tree's table spells the code of its symbol, and no bits for a symbol without one (R47, R48). -/
theorem codePath_table {tree : CodeTree} (hlen : ∀ p ∈ tree.codes, p.2.length ≤ 256) (a : Fin 257) :
    codePath tree.table[a.val] = (tree.codeOf (BitVec.ofNat 9 a.val)).getD [] := by
  rw [table_getElem]
  cases hcode : tree.codeOf (BitVec.ofNat 9 a.val) with
  | none => rfl
  | some path => exact codePath_entryOfPath (hlen _ (mem_codes_of_codeOf hcode))

section
variable {tree : CodeTree} (hlen : ∀ p ∈ tree.codes, p.2.length ≤ 256)
include hlen

/-- A symbol with a leaf is sent as its code (R260). -/
theorem encodeSymbol_run {s : State} {v : Nat} (hcode : s.code = tree.table) (hv : v < 256)
    (hmem : BitVec.ofNat 9 v ∈ tree.symbols) :
    (encodeSymbol v).run ⟨s, none⟩ = .ok () ⟨appendSnk ((tree.codeOf (BitVec.ofNat 9 v)).getD []) s, none⟩ := by
  have hpresent : s.code[v].present = true := by
    simp only [hcode]
    exact (table_present tree ⟨v, by omega⟩).2 hmem
  have hpath : codePath s.code[v] = (tree.codeOf (BitVec.ofNat 9 v)).getD [] := by
    simp only [hcode]
    exact codePath_table hlen ⟨v, by omega⟩
  rw [encodeSymbol, bind_of_ok (getState_run _), dif_pos hv, if_pos hpresent, snkWriteBits_run, hpath]

/-- The loop of pass 2 on symbols with leaves sends their codes and reads SRC to its end (R260). -/
theorem encodeLoop_run {s : State} {vs : List Nat} {rest : Bits} {fuel : Nat} (hcode : s.code = tree.table)
    (hvs : ∀ v ∈ vs, v < 256 ∧ BitVec.ofNat 9 v ∈ tree.symbols)
    (hu : s.unread = vs.flatMap (natToBits s.build.symInW) ++ rest) (hrest : rest.length < s.build.symInW)
    (hfuel : vs.length < fuel) :
    (encodeLoop fuel).run ⟨s, none⟩ =
      .ok () ⟨setSrcPos s.src.bits.length (appendSnk (tree.encodeAll vs) s), none⟩ := by
  obtain ⟨fuel, rfl⟩ := Nat.exists_eq_succ_of_ne_zero (Nat.ne_zero_of_lt hfuel)
  induction vs generalizing s fuel with
  | nil =>
    have heos : srcLeft s < s.build.symInW := by rwa [srcLeft_eq_unread_length, hu]
    rw [encodeLoop, bind_of_ok (getState_run _), bind_of_ok (srcRead_eos heos)]
    simp [CodeTree.encodeAll]
  | cons v vs ih =>
    obtain ⟨⟨hv, hmem⟩, hvs⟩ := List.forall_mem_cons.1 hvs
    rw [List.length_cons] at hfuel
    rw [List.flatMap_cons, List.append_assoc] at hu
    obtain ⟨fuel, rfl⟩ := Nat.exists_eq_succ_of_ne_zero (by omega : fuel ≠ 0)
    rw [encodeLoop, bind_of_ok (getState_run _), bind_of_ok (srcRead_field hu),
      Nat.mod_eq_of_lt (lt_two_pow_symInW s hv)]
    refine (bind_of_ok (encodeSymbol_run hlen (s := setSrcPos (s.src.pos + s.build.symInW) s) hcode hv hmem)).trans ?_
    refine (ih (s := appendSnk _ (setSrcPos (s.src.pos + s.build.symInW) s)) hcode hvs
      (unread_setSrcPos hu (natToBits_length ..)) hrest fuel (by omega)).trans ?_
    simp [CodeTree.encodeAll, setSrcPos, appendSnk]

end

/-! ### Pass 2 -/

/-- An archive (R88): the header, the body, and the sentinel's code. -/
def archiveOf (magic : Bits) (tree : CodeTree) (vs : List Nat) : Bits :=
  magic ++ tree.tokens ++ tree.encodeAll vs ++ (tree.codeOf 256).getD []

/-- Pass 2 on an input of symbols with leaves writes the archive of the input (R260, R262). -/
theorem compressPass2_run {s : State} {tree : CodeTree} {vs : List Nat} {rest : Bits} (htree : s.tree = some tree)
    (hcode : s.code = tree.table) (hvs : ∀ v ∈ vs, v < 256 ∧ BitVec.ofNat 9 v ∈ tree.symbols)
    (hbits : s.src.bits = vs.flatMap (natToBits s.build.symInW) ++ rest) (hrest : rest.length < s.build.symInW) :
    ∃ work, compressPass2.run ⟨s, none⟩ = .ok ()
      ⟨{ putWrote true (setSrcPos s.src.bits.length (appendSnk (archiveOf s.magicBits tree vs) s)) with work := work },
        none⟩ := by
  have hlen := code_length_le_of_tree htree
  obtain ⟨sent, hsent, hheader⟩ : ∃ sent : State,
      sent = { appendSnk (s.magicBits ++ tree.tokens) (setSrcPos 0 s) with work := sent.work } ∧
      writeHeader.run ⟨setSrcPos 0 (setPass 2 s), none⟩ = .ok () ⟨sent, none⟩ :=
    ⟨_, rfl, writeHeader_run (s := setSrcPos 0 (setPass 2 s)) htree⟩
  have hbuild : sent.build = s.build := by rw [hsent]; rfl
  have hcode' : sent.code = tree.table := by rw [hsent]; exact hcode
  have hunread : sent.unread = vs.flatMap (natToBits sent.build.symInW) ++ rest := by
    rw [hbuild, ← hbits, hsent]
    rfl
  have hbody := encodeLoop_run hlen hcode' hvs hunread (hbuild ▸ hrest) (length_lt_fuel hunread)
  have hsentinel : codePath sent.code[256] = (tree.codeOf 256).getD [] := by
    simp only [hcode']
    exact codePath_table hlen 256
  refine ⟨sent.work, (bind_of_ok (modState_run ..)).trans <| (bind_of_ok (srcRewind_run _)).trans <|
    (bind_of_ok hheader).trans <| (bind_of_ok (getState_run _)).trans <| (bind_of_ok hbody).trans <|
    (bind_of_ok (getState_run _)).trans <| (bind_of_ok (snkWriteBits_run ..)).trans <| (setWrote_run ..).trans ?_⟩
  simp only [setSrcPos_code, appendSnk_code, hsentinel]
  rw [hsent]
  simp [archiveOf, putWrote, setSrcPos, appendSnk]

/-! ### The commands -/

/-- A command whose rule raises ends with STATUS.ERR = 1, whatever was done before (R330, R331). -/
theorem exec_err_of_raised {i : Instr} {s : State} {r : Run} {e : ErrKind} {info : Word}
    (h : (ruleOf i).run ⟨s, none⟩ = .error (.raised e info) r) : ∃ t, exec i s = .next t ∧ t.status.err = true :=
  ⟨_, (exec_eq_runCommand i s).trans (runCommand_raised h), rfl⟩

/-- ENC_COMPRESS.F of symbols in range writes the archive they have with the tree of their counts, or ends in an error
(R260). -/
theorem exec_encCompressF_cases {s : State} {vs : List Nat} {rest : Bits} (hpos : s.src.pos = 0)
    (hvs : ∀ v ∈ vs, v < 256) (hbits : s.src.bits = vs.flatMap (natToBits s.build.symInW) ++ rest)
    (hrest : rest.length < s.build.symInW) :
    (vs.length < 2 ^ 32 ∧ ∃ tree t, tree.symbols.Perm (treeSymbols (countsOf vs)) ∧
      exec .encCompressF s = .next t ∧ t.snk = s.snk ++ archiveOf s.magicBits tree vs) ∨
    ∃ t, exec .encCompressF s = .next t ∧ t.status.err = true := by
  have hrule : (ruleOf .encCompressF).run ⟨s, none⟩ = _ := bind_of_ok (getState_run _)
  cases hrewind : s.src.rewindable with
  | false =>
    rw [if_pos hrewind] at hrule
    exact .inr (exec_err_of_raised hrule)
  | true =>
    rw [if_neg (ne_false_of_eq_true hrewind)] at hrule
    have hunread : s.unread = vs.flatMap (natToBits s.build.symInW) ++ rest := by
      rw [State.unread, hpos, List.drop_zero, hbits]
    rcases compressPass1_run s hvs hunread hrest with ⟨hlen, tree, u, hu, htree, hperm, hpass1⟩ | ⟨r, hpass1⟩
    case inr => exact .inr (exec_err_of_raised (hrule.trans (bind_of_error hpass1)))
    refine .inl ⟨hlen, tree, ?_⟩
    have hcode : u.code = tree.table := by rw [hu, coded]
    have hbuild : u.build = s.build := by rw [hu, coded]; rfl
    have hsnk : u.snk = s.snk := by rw [hu, coded]; rfl
    have hinput : u.src.bits = vs.flatMap (natToBits u.build.symInW) ++ rest := by
      rw [hbuild, ← hbits, hu, coded]
      rfl
    obtain ⟨work, hpass2⟩ := compressPass2_run (s := setSizeResult (projectedBits u) u)
      ((tree_congr rfl rfl).trans htree) hcode (mem_symbols_of_counted hperm hlen hvs) hinput
      (by rw [← hbuild] at hrest; exact hrest)
    have hrun := hrule.trans <| (bind_of_ok hpass1).trans <| (bind_of_ok (getState_run _)).trans <|
      (congrArg (EStateM.run · _) (if_pos rfl)).trans hpass2
    refine ⟨_, hperm, exec_of_ok hrun, ?_⟩
    change u.snk ++ archiveOf u.magicBits tree vs = _
    rw [hsnk, State.magicBits, hbuild, State.magicBits]

/-! ### The round trip -/

/-- A symbol with a leaf is sent as the path to a leaf of it (R48). -/
theorem mem_codes_of_mem_symbols {tree : CodeTree} {sym : BitVec 9} (h : sym ∈ tree.symbols) :
    (sym, (tree.codeOf sym).getD []) ∈ tree.codes := by
  obtain ⟨path, hpath⟩ := Option.isSome_iff_exists.1 (codeOf_isSome.2 h)
  rw [hpath]
  exact mem_codes_of_codeOf hpath

/-- The symbols of a body, each with the code it is sent as. -/
def bodyOf (tree : CodeTree) (vs : List Nat) : List (BitVec 9 × Bits) :=
  vs.map fun v => (BitVec.ofNat 9 v, (tree.codeOf (BitVec.ofNat 9 v)).getD [])

theorem bodyOf_codes (tree : CodeTree) (vs : List Nat) : (bodyOf tree vs).flatMap Prod.snd = tree.encodeAll vs := by
  rw [bodyOf, List.flatMap_map, CodeTree.encodeAll]

theorem toNat_ofNat_symbol {v : Nat} (h : v < 256) : (BitVec.ofNat 9 v).toNat = v :=
  Nat.mod_eq_of_lt (by omega)

theorem bodyOf_symbols (tree : CodeTree) {vs : List Nat} (hvs : ∀ v ∈ vs, v < 256) :
    ((bodyOf tree vs).flatMap fun p => natToBits 8 p.1.toNat) = vs.flatMap (natToBits 8) := by
  rw [bodyOf, List.flatMap_map]
  exact List.flatMap_congr fun v hv => by rw [toNat_ofNat_symbol (hvs v hv)]

theorem bodyOf_mem {tree : CodeTree} {vs : List Nat} (hvs : ∀ v ∈ vs, v < 256 ∧ BitVec.ofNat 9 v ∈ tree.symbols) :
    ∀ p ∈ bodyOf tree vs, p ∈ tree.codes ∧ p.1.toNat < 256 := by
  intro p hp
  obtain ⟨v, hv, rfl⟩ := List.mem_map.1 hp
  obtain ⟨hlt, hmem⟩ := hvs v hv
  exact ⟨mem_codes_of_mem_symbols hmem, (toNat_ofNat_symbol hlt).trans_lt hlt⟩

/-- The two result registers hold a size of up to 64 bits whole (R38). -/
theorem setSizeResult_sizeResult {n : Nat} (h : n < 2 ^ 64) (s : State) : (setSizeResult n s).sizeResult = n := by
  simp only [State.sizeResult, setSizeResult, setResults_result0, setResults_result1, BitVec.toNat_ofNat]
  omega

/-- DEC_DECOMPRESS of the archive of some symbols writes the symbols (R280). -/
theorem exec_decDecompress_archive {s : State} {tree : CodeTree} {vs : List Nat} {trailing : Bits}
    (hnodes : tree.nodeCount ≤ 513) (hvs : ∀ v ∈ vs, v < 256 ∧ BitVec.ofNat 9 v ∈ tree.symbols)
    (hsentinel : 256 ∈ tree.symbols) (hcount : vs.length < 2 ^ 61)
    (hu : s.unread = archiveOf s.magicBits tree vs ++ trailing) :
    ∃ t, exec .decDecompress s = .next t ∧
      t.status = { (s.status.withValid true false) with busy := false, done := true } ∧
      t.snk = s.snk ++ vs.flatMap (natToBits 8) ∧ t.sizeResult = 8 * vs.length ∧
      t.src.pos = s.src.pos + (archiveOf s.magicBits tree vs).length := by
  have hbodylen : (bodyOf tree vs).length = vs.length := List.length_map ..
  rw [archiveOf, ← bodyOf_codes] at hu
  refine ⟨_, exec_decDecompress (bodyOf_mem hvs) (mem_codes_of_mem_symbols hsentinel) (hbodylen.trans_lt hcount)
    hnodes hu, rfl, ?_, ?_, ?_⟩
  · rw [bodyOf_symbols tree fun v hv => (hvs v hv).1]
    rfl
  · rw [hbodylen]
    exact setSizeResult_sizeResult (by omega) s
  · rw [bodyOf_codes]
    simp [archiveOf, State.streamed, State.afterHeader, State.magicBits, Nat.add_assoc]

theorem bytesToBits_eq (bytes : List (BitVec 8)) :
    bytesToBits bytes = (bytes.map BitVec.toNat).flatMap (natToBits 8) := by
  rw [bytesToBits, List.flatMap_map]

/-- Settles O51: the archive that pass 2 writes is the header of a tree with a leaf for each byte of the input and for
the sentinel, and then their codes, so the decoder reads the same tree and walks it from leaf to leaf. -/
theorem compressDecompressRoundTrip : Obligations.CompressDecompressRoundTrip := by
  intro s₁ s₂ t₁ bytes archive trailing hwidth hbits hpos hexec hok hsnk hmagic hu
  have hvs : ∀ v ∈ bytes.map BitVec.toNat, v < 256 := by
    intro v hv
    obtain ⟨b, -, rfl⟩ := List.mem_map.1 hv
    exact b.isLt
  have hinput : s₁.src.bits = (bytes.map BitVec.toNat).flatMap (natToBits s₁.build.symInW) ++ [] := by
    rw [hbits, bytesToBits_eq, hwidth, List.append_nil]
  rcases exec_encCompressF_cases hpos hvs hinput (by rw [hwidth]; decide) with
    ⟨hlen, tree, t, hperm, hexec', harchive⟩ | ⟨t, hexec', herr⟩
  case inr =>
    obtain rfl : t₁ = t := Host.Outcome.next.inj (hexec.symm.trans hexec')
    simp [hok] at herr
  obtain rfl : t₁ = t := Host.Outcome.next.inj (hexec.symm.trans hexec')
  have hmagic' : s₁.magicBits = s₂.magicBits := by rw [State.magicBits, State.magicBits, hmagic]
  obtain rfl := List.append_cancel_left (hsnk.symm.trans harchive)
  rw [hmagic'] at hu ⊢
  have hleaves := leafCount_le_walkFuel hperm
  have hnodes := nodeCount_succ tree
  rw [bytesToBits_eq, ← List.length_map (as := bytes) BitVec.toNat]
  exact exec_decDecompress_archive (by unfold walkFuel at hleaves; omega)
    (mem_symbols_of_counted hperm hlen hvs) (hperm.mem_iff.2 (by simp [treeSymbols_eq])) (by omega) hu

end Sys2Proof.Machine
end

section
/-! The decoder's errors (R281, R282, R284, R285): a foreign magic, a root that is a leaf, a leaf above the sentinel, and
a body that is cut short. Each ends the command where the reads meet it, and what was written before it stays. -/

namespace Sys2Proof.Machine

/-- A command whose rule raises ends in that error, with all that was done before it (R330, R331). -/
theorem exec_raised {i : Instr} {s : State} {r : Run} {e : ErrKind} {info : Word}
    (h : (ruleOf i).run ⟨s, none⟩ = .error (.raised e info) r) : ∃ t, exec i s = .next t ∧ EndsInError e info r.st t :=
  ⟨_, (exec_eq_runCommand i s).trans (runCommand_raised h), endsInError_endInError e info r.st⟩

/-! ### A foreign magic -/

/-- A stream too short for the magic (R243). -/
theorem readHeaderTokens_short {s : State} (h : s.unread.length < 32) :
    readHeaderTokens.run ⟨s, none⟩ = .error (.raised .formatError 0) ⟨setSrcPos s.src.bits.length s, none⟩ := by
  rw [← srcLeft_eq_unread_length] at h
  rw [readHeaderTokens, bind_of_ok (srcRead_eos h), raise_run]

/-- Another word in the place of the magic (R243). -/
theorem readHeaderTokens_foreign {s : State} {w : Word} {rest : Bits} (hu : s.unread = natToBits 32 w.toNat ++ rest)
    (hw : w ≠ s.build.hdrMagic) :
    readHeaderTokens.run ⟨s, none⟩ = .error (.raised .formatError w) ⟨setSrcPos (s.src.pos + 32) s, none⟩ := by
  have hread : BitVec.ofNat 32 (w.toNat % 2 ^ 32) = w := by
    rw [Nat.mod_eq_of_lt w.isLt, BitVec.ofNat_toNat, BitVec.setWidth_eq]
  rw [readHeaderTokens, bind_of_ok (srcRead_field hu), bind_of_ok (getState_run _), hread]
  exact congrArg (EStateM.run · _) (if_pos hw)

/-- An error while the header is read leaves a tree of any values (R243, R331). -/
theorem readHeader_raised {s u : State} {e : ErrKind} {info : Word}
    (h : readHeaderTokens.run ⟨putNothingValid s, none⟩ = .error (.raised e info) ⟨u, none⟩) :
    readHeader.run ⟨s, none⟩ = .error (.raised e info) ⟨scrambleTree u, none⟩ := by
  rw [readHeader, bind_of_ok (modState_run ..)]
  refine bind_of_error ?_
  rw [unspecifiedOnError_run, h]

/-- The two readers end in the error that their header ends in (R243, R280). -/
theorem exec_headerError {s u : State} {i : Instr} {e : ErrKind} {info : Word} (hi : i = .hcRead ∨ i = .decDecompress)
    (h : readHeaderTokens.run ⟨putNothingValid s, none⟩ = .error (.raised e info) ⟨u, none⟩) :
    ∃ t node root nleaves nnodes, exec i s = .next t ∧
      EndsInError e info { u with node := node, root := root, nleaves := nleaves, nnodes := nnodes } t := by
  obtain ⟨f, hrule⟩ : ∃ f, ruleOf i = readHeader >>= f := by
    rcases hi with rfl | rfl <;> exact ⟨_, rfl⟩
  have hrun : (ruleOf i).run ⟨s, none⟩ = .error (.raised e info) ⟨scrambleTree u, none⟩ := by
    rw [hrule, bind_of_error (readHeader_raised h)]
  obtain ⟨t, hexec, r0, r1, d, ht⟩ := exec_raised hrun
  exact ⟨t, _, _, _, _, hexec, r0, r1, d, ht⟩

/-- Settles O39: the magic is the first read of both readers, and they check it before anything else. -/
theorem foreignMagicIsFormatError : Obligations.ForeignMagicIsFormatError :=
  fun s _ hi =>
    ⟨fun hshort => exec_headerError hi (readHeaderTokens_short (s := putNothingValid s) hshort),
      fun _ _ hu hw => exec_headerError hi (readHeaderTokens_foreign (s := putNothingValid s) hu hw)⟩

/-! ### After the header -/

/-- The machine after DEC_DECOMPRESS has read a header that spells a tree (R243). -/
def headerRead (tree : CodeTree) (s : State) : State :=
  { s.afterHeader tree (rebuilt tree 0 s.node) with
    work := { s.work with slots := tree.nodeCount, hdrBits := 32 + tree.tokens.length } }

section
variable {s : State} {tree : CodeTree} {rest : Bits} (hu : s.unread = s.magicBits ++ tree.tokens ++ rest)
include hu

theorem headerRead_unread : (headerRead tree s).unread = rest := by
  have hlen : (s.magicBits ++ tree.tokens).length = 32 + tree.tokens.length := by
    rw [List.length_append, State.magicBits, natToBits_length]
  have h := unread_setSrcPos hu hlen
  rwa [← Nat.add_assoc] at h

/-- A header that was read lies within SRC (R53). -/
theorem headerRead_pos_le : (headerRead tree s).src.pos ≤ (headerRead tree s).src.bits.length := by
  have hlen := congrArg List.length hu
  simp only [State.unread, State.magicBits, List.length_drop, List.length_append, natToBits_length] at hlen
  change s.src.pos + 32 + tree.tokens.length ≤ s.src.bits.length
  omega

/-- DEC_DECOMPRESS ends in the error that the body after its header ends in, and of the working state nothing is left
(R280, R49). -/
theorem exec_bodyError {u : State} {work : Work} {e : ErrKind} {info : Word} (hnodes : tree.nodeCount ≤ 513)
    (h : decodeBody.run ⟨headerRead tree s, none⟩ = .error (.raised e info) ⟨{ u with work := work }, none⟩) :
    ∃ t, exec .decDecompress s = .next t ∧ EndsInError e info u t :=
  exec_raised (i := .decDecompress) ((bind_of_ok (readHeader_run hu hnodes)).trans (bind_of_error h))

end

theorem headerRead_treeAt {tree : CodeTree} (hnodes : tree.nodeCount ≤ 513) (s : State) :
    TreeAt (headerRead tree s).node (headerRead tree s).root tree (slotRun 0 tree.nodeCount) :=
  rebuilt_treeAt (n := 0) (by omega)

/-! ### A root that is a leaf -/

/-- A leaf other than the sentinel's at the root is an error before the first bit of the body (R281). -/
theorem decodeBody_treeError {s : State} {sym : BitVec 9} {w : BitVec 41} (hn : s.node[s.root.val] = .leaf sym w)
    (hsym : sym ≠ 256) :
    decodeBody.run ⟨s, none⟩ = .error (.raised .treeError (sym.setWidth 32)) ⟨atBodyStart s, none⟩ := by
  have hsym' : sym ≠ 256#9 := hsym
  simp [decodeBody, atBodyStart, hn, hsym']

/-- Settles O47: the sentinel alone is the tree of an archive without symbols, and any other leaf at the root is met
before the loop. -/
theorem rootLeafIsSettledBeforeTheBody : Obligations.RootLeafIsSettledBeforeTheBody := by
  intro s sym rest hu
  have hnodes : (CodeTree.leaf sym).nodeCount ≤ 513 := by rw [CodeTree.nodeCount]; omega
  refine ⟨_, holdsRebuilt_rebuilt hnodes s.node, ?_, fun hsym => ?_⟩
  · rintro rfl
    simpa [State.streamed] using exec_decDecompress (s := s) (body := []) (last := []) (rest := rest)
      (by simp) (by simp) (by simp) hnodes (by simpa using hu)
  · cases headerRead_treeAt hnodes s with
    | leaf hn => exact exec_bodyError hu hnodes (decodeBody_treeError hn hsym)

/-! ### The walk through a body that does not end well -/

/-- The codes that a body begins with are decoded, and the walk starts again at the root (R280). -/
theorem decodeBody_codes {s : State} {l r : CodeTree} {slots : List Slot} {body : List (BitVec 9 × Bits)} {rest : Bits}
    (htree : TreeAt s.node s.root (.node l r) slots)
    (hbody : ∀ p ∈ body, p ∈ (CodeTree.node l r).codes ∧ p.1.toNat < 256) (hcount : body.length < 2 ^ 61)
    (hu : s.unread = body.flatMap Prod.snd ++ rest) :
    decodeBody.run ⟨s, none⟩ = (decodeLoop (rest.length + 1)).run ⟨decoded body (atBodyStart s), none⟩ := by
  have hroom : (atBodyStart s).work.symbols + body.length < 2 ^ 61 := (Nat.zero_add _).trans_lt hcount
  have hcodes := decodeLoop_codes (s := atBodyStart s) htree rfl hbody hroom hu (rest.length + 1)
  cases htree with
  | internal hn hl hr => rw [decodeBody_internal hn, hu, List.length_append, Nat.add_assoc, hcodes]

/-- What a walk some bits past the codes of a body has done, its working state aside. -/
theorem walkedTo_decoded (s : State) (body : List (BitVec 9 × Bits)) (i : Slot) (n : Nat) :
    ∃ work, walkedTo i n (decoded body (atBodyStart s)) =
      { s.streamed (body.flatMap fun p => natToBits 8 p.1.toNat) ((body.flatMap Prod.snd).length + n) with
        work := work } :=
  ⟨(walkedTo i n (decoded body (atBodyStart s))).work, by
    simp [walkedTo, decoded, atBodyStart, State.streamed, setWalker, setSymbols, setSrcPos, Nat.add_assoc]⟩

/-! ### A leaf above the sentinel -/

/-- A bit that leads to a leaf above the sentinel is an error (R282). -/
theorem decodeLoop_aboveSentinel {s : State} {b : Bool} {rest : Bits} {sym : BitVec 9} {w : BitVec 41}
    (hu : s.unread = b :: rest) (hsym : 256 < sym.toNat)
    (hn : s.node[(childOf s.node s.work.walker b.toNat).val] = .leaf sym w) (fuel : Nat) :
    (decodeLoop (fuel + 1)).run ⟨s, none⟩ = .error (.raised .invalidSymbol (sym.setWidth 32))
      ⟨walkedTo (childOf s.node s.work.walker b.toNat) 1 s, none⟩ := by
  have hne : sym ≠ 256#9 := by rintro rfl; simp at hsym
  simp [decodeLoop, srcRead_bit hu, hn, hne, hsym, walkedTo]

/-- The code of a leaf above the sentinel is read whole before the error (R282). -/
theorem decodeLoop_invalidSymbol {s : State} {tree : CodeTree} {slots : List Slot} {bad : BitVec 9 × Bits} {rest : Bits}
    (htree : TreeAt s.node s.work.walker tree slots) (hbad : bad ∈ tree.codes) (hsym : 256 < bad.1.toNat)
    (hne : bad.2 ≠ []) (hu : s.unread = bad.2 ++ rest) (fuel : Nat) :
    ∃ i, (decodeLoop (bad.2.length + fuel)).run ⟨s, none⟩ =
      .error (.raised .invalidSymbol (bad.1.setWidth 32)) ⟨walkedTo i bad.2.length s, none⟩ := by
  obtain ⟨sym, code⟩ := bad
  obtain ⟨path, b, rfl⟩ := List.eq_nil_or_concat code |>.resolve_left hne
  rw [List.concat_eq_append] at *
  rw [List.append_assoc, List.singleton_append] at hu
  obtain ⟨i, w, hleaf, hrun⟩ := decodeLoop_toLastBit htree hbad hu (fuel + 1)
  refine ⟨childOf s.node i b.toNat, ?_⟩
  rw [List.length_append, List.length_singleton, Nat.add_assoc, Nat.add_comm 1, hrun]
  rw [decodeLoop_aboveSentinel (s := walkedTo i path.length s) (walkedTo_unread i hu) hsym hleaf]
  simp [walkedTo, setWalker, setSrcPos, Nat.add_assoc]

/-- Settles O48: the symbols before are decoded, and the walk of the next code ends at the leaf above the sentinel. -/
theorem leafAboveSentinelIsInvalidSymbol : Obligations.LeafAboveSentinelIsInvalidSymbol := by
  intro s tree body bad rest hnodes hbody hbad hsym hne hcount hu
  have hheader : s.unread = s.magicBits ++ tree.tokens ++ (body.flatMap Prod.snd ++ (bad.2 ++ rest)) := by
    simpa only [List.append_assoc] using hu
  have htree := headerRead_treeAt hnodes s
  have hafter := headerRead_unread hheader
  cases tree with
  | leaf sym => exact absurd (congrArg Prod.snd (List.mem_singleton.1 hbad)) hne
  | node l r =>
    have hcodes := decodeBody_codes htree hbody hcount hafter
    obtain ⟨i, hend⟩ := decodeLoop_invalidSymbol (s := decoded body (atBodyStart (headerRead (.node l r) s))) htree hbad
      hsym hne (decoded_unread hafter) (rest.length + 1)
    obtain ⟨work, hwork⟩ := walkedTo_decoded (headerRead (.node l r) s) body i bad.2.length
    rw [List.length_append, Nat.add_assoc, hend, hwork] at hcodes
    obtain ⟨t, ht⟩ := exec_bodyError hheader hnodes hcodes
    exact ⟨t, _, holdsRebuilt_rebuilt hnodes s.node, ht⟩

/-! ### A body that is cut short -/

/-- SRC holds the bits that stand next on it. -/
theorem pos_add_le_of_unread {s : State} {a rest : Bits} (hpos : s.src.pos ≤ s.src.bits.length)
    (hu : s.unread = a ++ rest) : s.src.pos + a.length ≤ s.src.bits.length := by
  have hlen := congrArg List.length hu
  rw [State.unread, List.length_drop, List.length_append] at hlen
  omega

/-- The end of SRC inside the body is an error, and there is nothing left to consume (R280). -/
theorem decodeLoop_end {s : State} (hpos : s.src.pos ≤ s.src.bits.length) (hu : s.unread = []) (fuel : Nat) :
    (decodeLoop (fuel + 1)).run ⟨s, none⟩ = .error (.raised .unexpectedEndOfInput 0) ⟨s, none⟩ := by
  have heos : srcLeft s < 1 := by rw [srcLeft_eq_unread_length, hu]; decide
  have hend : setSrcPos s.src.bits.length s = s := by
    rw [← hpos.antisymm (List.drop_eq_nil_iff.1 hu)]
    rfl
  rw [decodeLoop, bind_of_ok (srcRead_eos heos), hend, raise_run]

/-- A subtree that some bits of a code still lead into has an inner node at its root. -/
theorem TreeAt.root_internal {node : Vector Node 513} {i : Slot} {tree : CodeTree} {slots : List Slot} {sym : BitVec 9}
    {b : Bool} {path : Bits} (h : TreeAt node i tree slots) (hp : (sym, b :: path) ∈ tree.codes) :
    ∃ x y w, node[i.val] = .internal x y w := by
  cases h with
  | leaf => simp at hp
  | internal hn => exact ⟨_, _, _, hn⟩

/-- The bits of a code, as long as some of it is still to come, are steps of the walk (R280). -/
theorem decodeLoop_part {s : State} {tree : CodeTree} {slots : List Slot} {sym : BitVec 9} {part more rest : Bits}
    {b : Bool} (htree : TreeAt s.node s.work.walker tree slots) (hp : (sym, part ++ b :: more) ∈ tree.codes)
    (hu : s.unread = part ++ rest) (fuel : Nat) :
    ∃ i, (decodeLoop (part.length + fuel)).run ⟨s, none⟩ = (decodeLoop fuel).run ⟨walkedTo i part.length s, none⟩ := by
  induction part generalizing s tree slots with
  | nil => exact ⟨s.work.walker, by simp [walkedTo, setWalker, setSrcPos]⟩
  | cons c part ih =>
    obtain ⟨l, r, rfl, hchild⟩ := mem_codes_cons hp
    obtain ⟨slots', hat⟩ := htree.child c
    obtain ⟨x, y, w, hn⟩ : ∃ x y w, s.node[(childOf s.node s.work.walker c.toNat).val] = .internal x y w := by
      cases part <;> exact hat.root_internal hchild
    obtain ⟨i, hrun⟩ := ih (s := walkedTo (childOf s.node s.work.walker c.toNat) 1 s) hat hchild
      (walkedTo_unread (a := [c]) _ hu)
    refine ⟨i, ?_⟩
    rw [List.length_cons, Nat.add_right_comm, decodeLoop_step hu _ hn, hrun]
    simp [walkedTo, setWalker, setSrcPos, Nat.add_assoc, Nat.add_comm 1]

/-- A code cut short ends the body in an error (R285). -/
theorem decodeLoop_truncated {s : State} {tree : CodeTree} {slots : List Slot} {sym : BitVec 9} {part more : Bits}
    {b : Bool} (htree : TreeAt s.node s.work.walker tree slots) (hp : (sym, part ++ b :: more) ∈ tree.codes)
    (hpos : s.src.pos ≤ s.src.bits.length) (hu : s.unread = part) :
    ∃ i, (decodeLoop (part.length + 1)).run ⟨s, none⟩ =
      .error (.raised .unexpectedEndOfInput 0) ⟨walkedTo i part.length s, none⟩ := by
  have hu' : s.unread = part ++ [] := hu.trans (List.append_nil part).symm
  obtain ⟨i, hrun⟩ := decodeLoop_part htree hp hu' 1
  exact ⟨i, hrun.trans (decodeLoop_end (pos_add_le_of_unread hpos hu') (walkedTo_unread i hu') 0)⟩

/-- Settles O49: the symbols before the cut are decoded, and the walk of the next code meets the end of SRC. -/
theorem truncatedBodyIsUnexpectedEnd : Obligations.TruncatedBodyIsUnexpectedEnd := by
  rintro s tree body part ⟨sym, code⟩ hnodes hbody hnext ⟨suffix, rfl⟩ hne hcount hu
  have hheader : s.unread = s.magicBits ++ tree.tokens ++ (body.flatMap Prod.snd ++ part) := by
    simpa only [List.append_assoc] using hu
  have htree := headerRead_treeAt hnodes s
  have hafter := headerRead_unread hheader
  obtain ⟨b, more, rfl⟩ := List.exists_cons_of_ne_nil fun hnil : suffix = [] => hne (by simp [hnil])
  cases tree with
  | leaf sym' => simp at hnext
  | node l r =>
    have hcodes := decodeBody_codes htree hbody hcount hafter
    obtain ⟨i, hend⟩ := decodeLoop_truncated (s := decoded body (atBodyStart (headerRead (.node l r) s))) htree hnext
      (pos_add_le_of_unread (headerRead_pos_le hheader) hafter) (decoded_unread hafter)
    obtain ⟨work, hwork⟩ := walkedTo_decoded (headerRead (.node l r) s) body i part.length
    rw [hend, hwork] at hcodes
    obtain ⟨t, ht⟩ := exec_bodyError hheader hnodes hcodes
    exact ⟨t, _, holdsRebuilt_rebuilt hnodes s.node, ht⟩

end Sys2Proof.Machine
end

section
/-! How the core ends a command in an error (R330), and the codes of the error kinds (R320). -/

namespace Sys2Proof.Machine

/-- The error entry, with the flags that it sets written out (R330). -/
theorem raiseEntry_eq (e : ErrKind) (info : Word) (s : State) : raiseEntry e info s =
    { s with errinfo := info, phase := .idle, work := Work.fresh,
             status := { s.status with errcode := errCode e, err := true, busy := false, done := true } } := by
  rw [raiseEntry, raiseFlags]

/-- Settles O16: the error entry sets exactly the fields that R330 names, and each kind's code is its row of R320. -/
theorem raiseRecordsTheError : Obligations.RaiseRecordsTheError :=
  ⟨raiseEntry_eq, rfl, rfl, rfl, rfl, rfl, rfl, rfl, rfl, rfl⟩

end Sys2Proof.Machine
end
section
/-! What a command's rule can do to the machine, said once for each command: the parts it may write (R39, R43, R47, R52,
R53, R86), and how a run of it that is cut off after some of its actions stands beside the whole run. -/

namespace Sys2Proof.Machine

/-! ### The parts of the machine -/

/-- The parts of the machine that some commands may write and others may not. Any command may write its results, its
working state and the counter of free values. -/
inductive Area where
  | src | snk | freq | totals | tree | treeFlag | code | tableFlag | wroteFlag
  deriving DecidableEq

/-- What no rule changes: the operands, the streams' identity, and the flags that acceptance and completion set. -/
def State.fixedPart (s : State) :=
  (s.build, s.cmd, s.arg0, s.arg1, s.errinfo, s.phase, s.resetLine, s.agenda, s.bus, s.src.bits, s.src.rewindable,
    s.src.start, s.status.busy, s.status.done, s.status.err, s.status.errcode)

/-- The tree memory with its registers (R44, R45). -/
def State.treePart (s : State) := (s.node, s.root, s.nleaves, s.nnodes)

/-- From s to t nothing was written but the areas w, SNK only grew, and SRC's cursor stayed within its bits. -/
structure Frame (w : List Area) (s t : State) : Prop where
  fixed : t.fixedPart = s.fixedPart
  cursor : s.src.pos ≤ s.src.bits.length → t.src.pos ≤ t.src.bits.length
  output : s.snk <+: t.snk
  src : .src ∉ w → t.src = s.src
  snk : .snk ∉ w → t.snk = s.snk
  freq : .freq ∉ w → t.freq = s.freq
  totals : .totals ∉ w → (t.total, t.skipped) = (s.total, s.skipped)
  tree : .tree ∉ w → t.treePart = s.treePart
  treeFlag : .treeFlag ∉ w → t.status.treeValid = s.status.treeValid
  code : .code ∉ w → t.code = s.code
  tableFlag : .tableFlag ∉ w → t.status.tableValid = s.status.tableValid
  wroteFlag : .wroteFlag ∉ w → t.status.wrote = s.status.wrote

section
variable {w : List Area} {s t u : State}

theorem Frame.refl (w : List Area) (s : State) : Frame w s s where
  fixed := rfl
  cursor := id
  output := List.prefix_rfl
  src _ := rfl
  snk _ := rfl
  freq _ := rfl
  totals _ := rfl
  tree _ := rfl
  treeFlag _ := rfl
  code _ := rfl
  tableFlag _ := rfl
  wroteFlag _ := rfl

theorem Frame.trans (h : Frame w s t) (h' : Frame w t u) : Frame w s u where
  fixed := h'.fixed.trans h.fixed
  cursor := h'.cursor ∘ h.cursor
  output := h.output.trans h'.output
  src hw := (h'.src hw).trans (h.src hw)
  snk hw := (h'.snk hw).trans (h.snk hw)
  freq hw := (h'.freq hw).trans (h.freq hw)
  totals hw := (h'.totals hw).trans (h.totals hw)
  tree hw := (h'.tree hw).trans (h.tree hw)
  treeFlag hw := (h'.treeFlag hw).trans (h.treeFlag hw)
  code hw := (h'.code hw).trans (h.code hw)
  tableFlag hw := (h'.tableFlag hw).trans (h.tableFlag hw)
  wroteFlag hw := (h'.wroteFlag hw).trans (h.wroteFlag hw)

theorem Frame.mono {w' : List Area} (h : Frame w s t) (hw : w ⊆ w') : Frame w' s t :=
  { h with
    src := fun h' => h.src (mt (@hw _) h'), snk := fun h' => h.snk (mt (@hw _) h'),
    freq := fun h' => h.freq (mt (@hw _) h'), totals := fun h' => h.totals (mt (@hw _) h'),
    tree := fun h' => h.tree (mt (@hw _) h'), treeFlag := fun h' => h.treeFlag (mt (@hw _) h'),
    code := fun h' => h.code (mt (@hw _) h'),
    tableFlag := fun h' => h.tableFlag (mt (@hw _) h'), wroteFlag := fun h' => h.wroteFlag (mt (@hw _) h') }

theorem frame_setSrcPos (hw : .src ∈ w) {p : Nat} (hp : s.src.pos ≤ s.src.bits.length → p ≤ s.src.bits.length) :
    Frame w s (setSrcPos p s) :=
  { Frame.refl w s with src := fun h => absurd hw h, cursor := hp }

theorem frame_appendSnk (hw : .snk ∈ w) (b : Bits) : Frame w s (appendSnk b s) :=
  { Frame.refl w s with snk := fun h => absurd hw h, output := List.prefix_append .. }

theorem frame_setFreq (hw : .freq ∈ w) (i : Fin 256) (v : Word) : Frame w s (setFreq i v s) :=
  { Frame.refl w s with freq := fun h => absurd hw h }

theorem frame_totals (hw : .totals ∈ w) (n m : Word) : Frame w s { s with total := n, skipped := m } :=
  { Frame.refl w s with totals := fun h => absurd hw h }

theorem frame_clearCounts (hfreq : .freq ∈ w) (htotals : .totals ∈ w) : Frame w s (clearCounts s) :=
  { Frame.refl w s with freq := fun h => absurd hfreq h, totals := fun h => absurd htotals h }

theorem frame_bumpCount (hfreq : .freq ∈ w) (htotals : .totals ∈ w) (i : Fin 256) : Frame w s (bumpCount i s) :=
  { Frame.refl w s with freq := fun h => absurd hfreq h, totals := fun h => absurd htotals h }

/-- The tree memory and its registers are written together. -/
theorem frame_tree (hw : .tree ∈ w) (node : Vector Node 513) (root : Slot) (nleaves nnodes : Nat) :
    Frame w s { s with node := node, root := root, nleaves := nleaves, nnodes := nnodes } :=
  { Frame.refl w s with tree := fun h => absurd hw h }

theorem frame_putTreeValid (hw : .treeFlag ∈ w) (b : Bool) : Frame w s (putTreeValid b s) :=
  { Frame.refl w s with treeFlag := fun h => absurd hw h }

theorem frame_putTableValid (hw : .tableFlag ∈ w) (b : Bool) : Frame w s (putTableValid b s) :=
  { Frame.refl w s with tableFlag := fun h => absurd hw h }

theorem frame_putWrote (hw : .wroteFlag ∈ w) (b : Bool) : Frame w s (putWrote b s) :=
  { Frame.refl w s with wroteFlag := fun h => absurd hw h }

theorem frame_code (hw : .code ∈ w) (code : Vector CodeEntry 257) : Frame w s { s with code := code } :=
  { Frame.refl w s with code := fun h => absurd hw h }

/-- Results, working state and the counter of free values are every command's. -/
theorem frame_free (r0 r1 : Word) (work : Work) (draws : Nat) :
    Frame w s { s with result0 := r0, result1 := r1, work := work, draws := draws } :=
  { Frame.refl w s with }

theorem frame_scrambleTree (hw : .tree ∈ w) : Frame w s (scrambleTree s) := by
  constructor <;> simp [hw, State.fixedPart]

theorem frame_scrambleCode (hw : .code ∈ w) : Frame w s (scrambleCode s) :=
  { Frame.refl w s with code := fun h => absurd hw h }

end

/-! ### Rules that stay within some areas -/

section
variable {α β : Type}

/-- Where a run ends, well or not. -/
def endRun : EStateM.Result Stop Run α → Run
  | .ok _ r => r
  | .error _ r => r

/-- How a run that may perform so many actions ends beside the same run without that limit: the same way, with actions to
spare, or paused where the other one went on within the areas w. -/
inductive PartOf (w : List Area) : EStateM.Result Stop Run α → EStateM.Result Stop Run α → Prop
  | ok (a : α) (s : State) (k : Nat) : PartOf w (.ok a ⟨s, some k⟩) (.ok a ⟨s, none⟩)
  | raised (e : ErrKind) (info : Word) (s : State) (k : Nat) :
    PartOf w (.error (.raised e info) ⟨s, some k⟩) (.error (.raised e info) ⟨s, none⟩)
  | paused {s : State} {k : Nat} {whole : EStateM.Result Stop Run α} (h : Frame w s (endRun whole).st) :
    PartOf w (.error .paused ⟨s, some k⟩) whole

/-- A piece of a rule that writes no area but those in w, and that a limit on its actions cuts short but does not turn
aside. -/
structure Within (w : List Area) (x : Cmd α) : Prop where
  frame : ∀ r, Frame w r.st (endRun (x.run r)).st
  whole : ∀ s, (endRun (x.run ⟨s, none⟩)).left = none
  part : ∀ s k, PartOf w (x.run ⟨s, some k⟩) (x.run ⟨s, none⟩)

variable {w : List Area}

/-- What always goes on, by a write within w, whatever the limit is. -/
theorem Within.of_write {x : Cmd α} (a : State → α) {f : State → State}
    (hx : ∀ r, x.run r = .ok (a r.st) { r with st := f r.st }) (hf : ∀ s, Frame w s (f s)) : Within w x where
  frame r := by rw [hx]; exact hf r.st
  whole s := by rw [hx]; rfl
  part s k := by rw [hx, hx]; exact .ok ..

theorem Within.pure (a : α) : Within w (pure a : Cmd α) :=
  .of_write (fun _ => a) (f := id) (fun _ => rfl) (Frame.refl w)

theorem Within.getState : Within w getState := .of_write id (f := id) (fun _ => rfl) (Frame.refl w)

theorem Within.modState {f : State → State} (hf : ∀ s, Frame w s (f s)) : Within w (modState f) :=
  .of_write (fun _ => ()) (fun _ => rfl) hf

theorem Within.raise (e : ErrKind) (info : Word) : Within w (raise e info : Cmd α) where
  frame r := Frame.refl w r.st
  whole _ := rfl
  part _ _ := .raised ..

theorem Within.stillRunning : Within w (stillRunning : Cmd α) where
  frame r := Frame.refl w r.st
  whole _ := rfl
  part s _ := .paused (Frame.refl w s)

theorem Within.tick : Within w tick where
  frame
    | ⟨s, none⟩ | ⟨s, some 0⟩ | ⟨s, some (_ + 1)⟩ => Frame.refl w s
  whole _ := rfl
  part
    | s, 0 => .paused (Frame.refl w s)
    | _, _ + 1 => .ok ..

theorem Within.completing : Within w completing where
  frame
    | ⟨s, none⟩ | ⟨s, some _⟩ => Frame.refl w s
  whole _ := rfl
  part s _ := .paused (Frame.refl w s)

theorem Within.bind {x : Cmd α} {f : α → Cmd β} (hx : Within w x) (hf : ∀ a, Within w (f a)) :
    Within w (x >>= f) := by
  have goesOn : ∀ r, Frame w (endRun (x.run r)).st (endRun ((x >>= f).run r)).st := by
    intro r
    rw [bind_run]
    cases x.run r with
    | ok a r' => exact (hf a).frame r'
    | error e r' => exact Frame.refl w r'.st
  refine ⟨fun r => (hx.frame r).trans (goesOn r), fun s => ?_, fun s k => ?_⟩
  · have hwhole := hx.whole s
    rw [bind_run]
    generalize x.run ⟨s, none⟩ = whole at hwhole ⊢
    rcases whole with ⟨a, ⟨s', left⟩⟩ | ⟨e, r'⟩
    · obtain rfl : left = none := hwhole
      exact (hf a).whole s'
    · exact hwhole
  · have hpart := hx.part s k
    have hgoesOn := goesOn ⟨s, none⟩
    rw [bind_run] at hgoesOn
    rw [bind_run, bind_run]
    generalize x.run ⟨s, some k⟩ = cut at hpart
    generalize x.run ⟨s, none⟩ = whole at hpart hgoesOn ⊢
    cases hpart with
    | ok a s' k' => exact (hf a).part s' k'
    | raised e info s' k' => exact .raised ..
    | paused h => exact .paused (h.trans hgoesOn)

theorem Within.unspecifiedOnError {f : State → State} {x : Cmd α} (hf : ∀ s, Frame w s (f s)) (hx : Within w x) :
    Within w (unspecifiedOnError f x) := by
  have goesOn : ∀ r, Frame w (endRun (x.run r)).st (endRun ((Machine.unspecifiedOnError f x).run r)).st := by
    intro r
    rw [unspecifiedOnError_run]
    rcases x.run r with ⟨a, r'⟩ | ⟨e | _, r'⟩
    · exact Frame.refl w r'.st
    · exact hf r'.st
    · exact Frame.refl w r'.st
  refine ⟨fun r => (hx.frame r).trans (goesOn r), fun s => ?_, fun s k => ?_⟩
  · have hwhole := hx.whole s
    rw [unspecifiedOnError_run]
    generalize x.run ⟨s, none⟩ = whole at hwhole ⊢
    rcases whole with ⟨a, r'⟩ | ⟨e | _, r'⟩ <;> exact hwhole
  · have hpart := hx.part s k
    have hgoesOn := goesOn ⟨s, none⟩
    rw [unspecifiedOnError_run] at hgoesOn
    rw [unspecifiedOnError_run, unspecifiedOnError_run]
    generalize x.run ⟨s, some k⟩ = cut at hpart
    generalize x.run ⟨s, none⟩ = whole at hpart hgoesOn ⊢
    cases hpart with
    | ok a s' k' => exact .ok ..
    | raised e info s' k' => exact .raised ..
    | paused h => exact .paused (h.trans hgoesOn)

end

/-- A run that is limited stays limited. -/
theorem Within.limited {α : Type} {w : List Area} {x : Cmd α} (h : Within w x) (s : State) (k : Nat) :
    ∃ k', (endRun (x.run ⟨s, some k⟩)).left = some k' := by
  have hpart := h.part s k
  generalize x.run ⟨s, some k⟩ = cut at hpart ⊢
  generalize x.run ⟨s, none⟩ = whole at hpart
  cases hpart with
  | ok a s' k' => exact ⟨k', rfl⟩
  | raised e info s' k' => exact ⟨k', rfl⟩
  | paused => exact ⟨_, rfl⟩

/-- Where a limited run ends well, the whole run ends in the same way. -/
theorem Within.run_whole_of_ok {α : Type} {w : List Area} {x : Cmd α} (h : Within w x) {r r' : Run} {a : α}
    (hrun : x.run r = .ok a r') : x.run ⟨r.st, none⟩ = .ok a ⟨r'.st, none⟩ := by
  obtain ⟨s, _ | k⟩ := r
  · have hwhole := h.whole s
    rw [hrun] at hwhole
    obtain ⟨s', left⟩ := r'
    obtain rfl : left = none := hwhole
    exact hrun
  · have hpart := h.part s k
    rw [hrun] at hpart
    generalize x.run ⟨s, none⟩ = whole at hpart ⊢
    cases hpart
    rfl

/-- The machine after some actions of a rule is the one that the limited run ends with. -/
theorem afterActions_eq (c : Cmd Unit) (k : Nat) (s : State) :
    afterActions c k s = (endRun (c.run ⟨s, some k⟩)).st := by
  rw [afterActions, EStateM.run]
  cases c ⟨s, some k⟩ <;> rfl

/-- What writes few areas writes no others. -/
theorem Within.mono {α : Type} {w w' : List Area} {x : Cmd α} (h : Within w x) (hw : w ⊆ w') : Within w' x where
  frame r := (h.frame r).mono hw
  whole := h.whole
  part s k := by
    have hpart := h.part s k
    generalize x.run ⟨s, some k⟩ = cut at hpart ⊢
    generalize x.run ⟨s, none⟩ = whole at hpart ⊢
    cases hpart with
    | ok a s' k' => exact .ok ..
    | raised e info s' k' => exact .raised ..
    | paused hframe => exact .paused (hframe.mono hw)

/-! ### The shared operations -/

section
variable {w : List Area}

/-- Where `SrcRead(n)` leaves SRC's cursor (R80). -/
def srcReadPos (n : Nat) (s : State) : Nat := if n ≤ srcLeft s then s.src.pos + n else s.src.bits.length

theorem srcReadPos_le (n : Nat) {s : State} (h : s.src.pos ≤ s.src.bits.length) :
    srcReadPos n s ≤ s.src.bits.length := by
  unfold srcReadPos srcLeft
  split <;> omega

/-- `SrcRead(n)` is an action and then the read (R80). -/
theorem within_srcRead (hw : .src ∈ w) (n : Nat) : Within w (srcRead n) := by
  refine .bind .tick fun _ => .of_write (fun s => if n ≤ srcLeft s then some (srcField n s) else none)
    (f := fun s => setSrcPos (srcReadPos n s) s) (fun r => ?_) fun s => frame_setSrcPos hw (srcReadPos_le n)
  by_cases h : n ≤ srcLeft r.st <;> simp [h, srcReadPos]

theorem within_srcRewind (hw : .src ∈ w) : Within w srcRewind :=
  .bind .tick fun _ => .modState fun _ => frame_setSrcPos hw fun _ => Nat.zero_le _

theorem within_snkWrite (hw : .snk ∈ w) (n v : Nat) : Within w (snkWrite n v) :=
  .bind .tick fun _ => .modState fun _ => frame_appendSnk hw _

theorem within_snkWriteBits (hw : .snk ∈ w) (b : Bits) : Within w (snkWriteBits b) := by
  induction b with
  | nil => exact .pure ()
  | cons x b ih => exact .bind (within_snkWrite hw 1 _) fun _ => ih

theorem within_setTreeValid (hw : .treeFlag ∈ w) (b : Bool) : Within w (setTreeValid b) :=
  .bind .tick fun _ => .modState fun _ => frame_putTreeValid hw b

theorem within_setTableValid (hw : .tableFlag ∈ w) (b : Bool) : Within w (setTableValid b) :=
  .bind .tick fun _ => .modState fun _ => frame_putTableValid hw b

theorem within_setWrote (hw : .wroteFlag ∈ w) (b : Bool) : Within w (setWrote b) :=
  .bind .tick fun _ => .modState fun _ => frame_putWrote hw b

theorem within_symbolOperand : Within w symbolOperand := by
  refine .bind .getState fun s => ?_
  split
  · exact .pure _
  · exact .raise ..

theorem within_codeSymbolOperand : Within w codeSymbolOperand := by
  refine .bind .getState fun s => ?_
  split
  · exact .pure _
  · exact .raise ..

/-! ### The units -/

theorem within_countSymbol (hfreq : .freq ∈ w) (htotals : .totals ∈ w) (v : Nat) : Within w (countSymbol v) := by
  refine .bind .getState fun s => ?_
  split <;> split
  · exact .raise ..
  · exact .modState fun _ => frame_bumpCount hfreq htotals _
  · exact .raise ..
  · exact .modState fun s => frame_totals htotals s.total _

theorem within_countLoop (hsrc : .src ∈ w) (hfreq : .freq ∈ w) (htotals : .totals ∈ w) (fuel : Nat) :
    Within w (countLoop fuel) := by
  induction fuel with
  | zero => exact .stillRunning
  | succ fuel ih =>
    refine .bind .getState fun s => .bind (within_srcRead hsrc _) fun v => ?_
    split
    · exact .pure ()
    · exact .bind (within_countSymbol hfreq htotals _) fun _ => ih

theorem within_countPass (hsrc : .src ∈ w) (hfreq : .freq ∈ w) (htotals : .totals ∈ w) : Within w countPass :=
  .bind (.modState fun _ => frame_clearCounts hfreq htotals) fun _ =>
    .bind .getState fun _ => within_countLoop hsrc hfreq htotals _

theorem within_recordCode (hw : .code ∈ w) (sym : BitVec 9) (path : Bits) : Within w (recordCode sym path) := by
  refine .bind .getState fun s => ?_
  split
  · split
    · exact .raise ..
    · exact .modState fun _ => frame_code hw _
  · exact .raise ..

theorem within_visit (hw : .code ∈ w) (fuel : Nat) (i : Slot) (path : Bits) : Within w (visit fuel i path) := by
  induction fuel generalizing i path with
  | zero => exact .stillRunning
  | succ fuel ih =>
    refine .bind .getState fun s => ?_
    split
    · exact within_recordCode hw _ _
    · exact .bind (ih _ _) fun _ => ih _ _

theorem within_fillCode (hw : .code ∈ w) : Within w fillCode :=
  .bind (.modState fun _ => frame_code hw _) fun _ => .bind .getState fun _ => within_visit hw _ _ _

theorem within_emit (hw : .snk ∈ w) (fuel : Nat) (i : Slot) : Within w (emit fuel i) := by
  induction fuel generalizing i with
  | zero => exact .stillRunning
  | succ fuel ih =>
    refine .bind .getState fun s => ?_
    split
    · exact .bind (within_snkWrite hw _ _) fun _ => .bind (within_snkWrite hw _ _) fun _ =>
        .modState fun _ => frame_free ..
    · exact .bind (within_snkWrite hw _ _) fun _ => .bind (.modState fun _ => frame_free ..) fun _ =>
        .bind (ih _) fun _ => ih _

theorem within_writeHeader (hw : .snk ∈ w) : Within w writeHeader :=
  .bind .getState fun _ => .bind (within_snkWrite hw _ _) fun _ => .bind (.modState fun _ => frame_free ..) fun _ =>
    within_emit hw _ _

theorem within_parse (hsrc : .src ∈ w) (htree : .tree ∈ w) (fuel : Nat) : Within w (parse fuel) := by
  induction fuel with
  | zero => exact .raise ..
  | succ fuel ih =>
    refine .bind .getState fun s => ?_
    split
    · exact .raise ..
    · refine .bind (.modState fun _ => frame_free ..) fun _ => .bind (within_srcRead hsrc _) fun t => ?_
      split
      · exact .raise ..
      · refine .bind (.modState fun _ => frame_free ..) fun _ => ?_
        split
        · refine .bind (within_srcRead hsrc _) fun v => ?_
          split
          · exact .raise ..
          · exact .bind (.modState fun _ => frame_free ..) fun _ =>
              .bind (.modState fun s => frame_tree htree _ s.root _ s.nnodes) fun _ => .pure _
        · exact .bind ih fun _ => .bind ih fun _ =>
            .bind (.modState fun s => frame_tree htree _ s.root s.nleaves s.nnodes) fun _ => .pure _

theorem within_readHeaderTokens (hsrc : .src ∈ w) (htree : .tree ∈ w) : Within w readHeaderTokens := by
  refine .bind (within_srcRead hsrc _) fun v => ?_
  split
  · exact .raise ..
  · refine .bind .getState fun s => ?_
    split
    · exact .raise ..
    · exact .bind (.modState fun s =>
        (frame_tree htree s.node s.root 0 s.nnodes).trans (frame_free s.result0 s.result1 _ s.draws)) fun _ =>
        .bind (within_parse hsrc htree _) fun root => .modState fun s => frame_tree htree s.node _ s.nleaves _

theorem within_readHeader (hsrc : .src ∈ w) (htree : .tree ∈ w) (hvalid : .treeFlag ∈ w) (hflag : .tableFlag ∈ w) :
    Within w readHeader :=
  .bind (.modState fun _ => (frame_putTreeValid hvalid false).trans (frame_putTableValid hflag false)) fun _ =>
    .bind (.unspecifiedOnError (fun _ => frame_scrambleTree htree) (within_readHeaderTokens hsrc htree)) fun _ =>
      within_setTreeValid hvalid true

theorem within_decodeLoop (hsrc : .src ∈ w) (hsnk : .snk ∈ w) (fuel : Nat) : Within w (decodeLoop fuel) := by
  induction fuel with
  | zero => exact .stillRunning
  | succ fuel ih =>
    refine .bind (within_srcRead hsrc _) fun t => ?_
    split
    · exact .raise ..
    · refine .bind .getState fun s => .bind (.modState fun _ => frame_free ..) fun _ => ?_
      split
      · exact ih
      · split_ifs
        · exact .pure ()
        · exact .raise ..
        · exact .raise ..
        · exact .bind (within_snkWrite hsnk _ _) fun _ => .bind (.modState fun _ => frame_free ..) fun _ =>
            .bind (.modState fun _ => frame_free ..) fun _ => ih

theorem within_decodeBody (hsrc : .src ∈ w) (hsnk : .snk ∈ w) : Within w decodeBody := by
  refine .bind (.modState fun _ => frame_free ..) fun _ => .bind (.modState fun _ => frame_free ..) fun _ =>
    .bind .getState fun s => ?_
  split
  · split
    · exact .pure ()
    · exact .raise ..
  · exact within_decodeLoop hsrc hsnk _

/-- The builder writes the tree memory and its registers (R201, R202). -/
theorem frame_storeTree (hw : .tree ∈ w) (s : State) : Frame w s (storeTree s) := by
  unfold storeTree
  exact frame_tree hw ..

theorem within_encodeSymbol (hsnk : .snk ∈ w) (v : Nat) : Within w (encodeSymbol v) := by
  refine .bind .getState fun s => ?_
  split
  · split
    · exact within_snkWriteBits hsnk _
    · exact .raise ..
  · exact .raise ..

theorem within_encodeLoop (hsrc : .src ∈ w) (hsnk : .snk ∈ w) (fuel : Nat) : Within w (encodeLoop fuel) := by
  induction fuel with
  | zero => exact .stillRunning
  | succ fuel ih =>
    refine .bind .getState fun s => .bind (within_srcRead hsrc _) fun v => ?_
    split
    · exact .pure ()
    · exact .bind (within_encodeSymbol hsnk _) fun _ => ih

end

/-! ### The commands -/

/-- The areas that each command may write (R39, R43, R47, R52, R86, R187). -/
def areasOf : Instr → List Area
  | .nop | .fcGet | .ctGet => []
  | .fcClear => [.freq, .totals]
  | .fcCount => [.src, .freq, .totals]
  | .fcAdd | .fcSet => [.freq]
  | .tbBuild => [.tree, .treeFlag, .tableFlag]
  | .ctMake => [.code, .tableFlag]
  | .hcWrite => [.snk]
  | .hcRead => [.src, .tree, .treeFlag, .tableFlag]
  | .encCompress | .encCompressF => [.src, .snk, .freq, .totals, .tree, .treeFlag, .code, .tableFlag, .wroteFlag]
  | .decDecompress => [.src, .snk, .tree, .treeFlag, .tableFlag]

theorem within_compressPass1 : Within [.src, .freq, .totals, .tree, .treeFlag, .code, .tableFlag] compressPass1 :=
  .bind (.modState fun _ => frame_free ..) fun _ =>
    .bind (within_countPass (by decide) (by decide) (by decide)) fun _ =>
    .bind (within_setTableValid (by decide) false) fun _ => .bind (.modState (frame_storeTree (by decide))) fun _ =>
    .bind (within_setTreeValid (by decide) true) fun _ => .bind (within_fillCode (by decide)) fun _ =>
    .bind (within_setTableValid (by decide) true) fun _ => .modState fun _ => frame_free ..

theorem within_compressPass2 : Within [.src, .snk, .wroteFlag] compressPass2 :=
  .bind (.modState fun _ => frame_free ..) fun _ => .bind (within_srcRewind (by decide)) fun _ =>
    .bind (within_writeHeader (by decide)) fun _ => .bind .getState fun _ =>
    .bind (within_encodeLoop (by decide) (by decide) _) fun _ => .bind .getState fun _ =>
    .bind (within_snkWriteBits (by decide) _) fun _ => within_setWrote (by decide) true

theorem within_ruleCompress (force : Bool) : Within (areasOf .encCompress) (ruleCompress force) := by
  refine .bind .getState fun s => ?_
  split
  · exact .raise ..
  · refine .bind (within_compressPass1.mono (by decide)) fun _ => .bind .getState fun s => ?_
    split
    · exact within_compressPass2.mono (by decide)
    · exact .pure ()

/-- Each command stays within the areas it may write. -/
theorem within_ruleOf (i : Instr) : Within (areasOf i) (ruleOf i) := by
  cases i with
  | nop => exact .pure ()
  | fcClear => exact .modState fun _ => frame_clearCounts (by decide) (by decide)
  | fcCount =>
    exact .bind (within_countPass (by decide) (by decide) (by decide)) fun _ => .modState fun _ => frame_free ..
  | fcGet => exact .bind within_symbolOperand fun _ => .modState fun _ => frame_free ..
  | fcAdd =>
    refine .bind within_symbolOperand fun _ => .bind .getState fun s => ?_
    split
    · exact .raise ..
    · exact .modState fun _ => frame_setFreq (by decide) _ _
  | fcSet => exact .bind within_symbolOperand fun _ => .modState fun _ => frame_setFreq (by decide) _ _
  | tbBuild =>
    exact .bind (within_setTableValid (by decide) false) fun _ => .bind (.modState (frame_storeTree (by decide)))
      fun _ => .bind (within_setTreeValid (by decide) true) fun _ => .modState fun _ => frame_free ..
  | ctMake =>
    refine .bind (.modState fun _ => frame_putTableValid (by decide) false) fun _ =>
      .bind (.unspecifiedOnError (fun _ => frame_scrambleCode (by decide)) (.bind .getState fun s => ?_)) fun _ =>
        .bind .completing fun _ => .modState fun _ => frame_putTableValid (by decide) true
    split
    · exact .raise ..
    · exact within_fillCode (by decide)
  | ctGet =>
    refine .bind .getState fun s => ?_
    split
    · exact .raise ..
    · exact .bind within_codeSymbolOperand fun _ => .modState fun _ => frame_free ..
  | hcWrite =>
    refine .bind .getState fun s => ?_
    split
    · exact .raise ..
    · exact .bind (within_writeHeader (by decide)) fun _ => .modState fun _ => frame_free ..
  | hcRead =>
    exact .bind (within_readHeader (by decide) (by decide) (by decide) (by decide)) fun _ => .modState fun _ => frame_free ..
  | encCompress => exact within_ruleCompress _
  | encCompressF => exact within_ruleCompress _
  | decDecompress =>
    exact .bind (within_readHeader (by decide) (by decide) (by decide) (by decide)) fun _ =>
      .bind (within_decodeBody (by decide) (by decide)) fun _ => .modState fun _ => frame_free ..

section
variable {i : Instr}

/-- The users of SRC (R86). -/
theorem src_mem_areasOf (h : .src ∈ areasOf i) :
    i ∈ [Instr.fcCount, .hcRead, .encCompress, .encCompressF, .decDecompress] := by
  revert h; cases i <;> decide

/-- The users of SNK (R86). -/
theorem snk_mem_areasOf (h : .snk ∈ areasOf i) :
    i ∈ [Instr.hcWrite, .encCompress, .encCompressF, .decDecompress] := by
  revert h; cases i <;> decide

/-- Who writes FREQ (R43). -/
theorem freq_mem_areasOf (h : .freq ∈ areasOf i) :
    i ∈ [Instr.fcClear, .fcCount, .fcAdd, .fcSet, .encCompress, .encCompressF] := by
  revert h; cases i <;> decide

/-- Who writes TOTAL and SKIPPED (R39, R40). -/
theorem totals_mem_areasOf (h : .totals ∈ areasOf i) :
    i ∈ [Instr.fcClear, .fcCount, .encCompress, .encCompressF] := by
  revert h; cases i <;> decide

/-- Who writes the tree (R52). -/
theorem tree_mem_areasOf (h : .tree ∈ areasOf i) :
    i ∈ [Instr.tbBuild, .hcRead, .encCompress, .encCompressF, .decDecompress] := by
  revert h; cases i <;> decide

/-- Who writes TREE_VALID (R37). -/
theorem treeFlag_mem_areasOf (h : .treeFlag ∈ areasOf i) :
    i ∈ [Instr.tbBuild, .hcRead, .encCompress, .encCompressF, .decDecompress] := by
  revert h; cases i <;> decide

/-- Who writes CODE (R47). -/
theorem code_mem_areasOf (h : .code ∈ areasOf i) : i ∈ [Instr.ctMake, .encCompress, .encCompressF] := by
  revert h; cases i <;> decide

end

/-- All that a command can do: its rule ends well or in an error, having written no other areas than its own, or it
would run on for ever. -/
theorem exec_cases (i : Instr) (s : State) :
    (∃ u, Frame (areasOf i) s u ∧ (ruleOf i).run ⟨s, none⟩ = .ok () ⟨u, none⟩ ∧ exec i s = .next (done u)) ∨
    (∃ e info u, Frame (areasOf i) s u ∧ (ruleOf i).run ⟨s, none⟩ = .error (.raised e info) ⟨u, none⟩ ∧
      exec i s = .next (endInError e info u)) ∨
    ((∃ r, (ruleOf i).run ⟨s, none⟩ = .error .paused r) ∧ exec i s = .next s) := by
  have hframe := (within_ruleOf i).frame ⟨s, none⟩
  have hwhole := (within_ruleOf i).whole s
  rw [exec_eq_runCommand]
  rcases runCommand_cases (ruleOf i) s with ⟨⟨u, left⟩, hrun, h⟩ | ⟨e, info, ⟨u, left⟩, hrun, h⟩ | ⟨r, hrun, h⟩
  · rw [hrun] at hframe hwhole
    obtain rfl : left = none := hwhole
    exact .inl ⟨u, hframe, hrun, h⟩
  · rw [hrun] at hframe hwhole
    obtain rfl : left = none := hwhole
    exact .inr (.inl ⟨e, info, u, hframe, hrun, h⟩)
  · exact .inr (.inr ⟨⟨r, hrun⟩, h⟩)

/-- How a machine stands that a command has left as u, when it is seen next: the command is done, or it ended in an
error, or it runs on. -/
inductive Ended (u : State) : State → Prop
  | done : Ended u (done u)
  | error (e : ErrKind) (info : Word) : Ended u (endInError e info u)
  | running : Ended u u

section
variable {u t : State}

theorem Ended.src (h : Ended u t) : t.src = u.src := by cases h <;> rfl

theorem Ended.snk (h : Ended u t) : t.snk = u.snk := by cases h <;> rfl

theorem Ended.freq (h : Ended u t) : t.freq = u.freq := by cases h <;> rfl

theorem Ended.totals (h : Ended u t) : t.total = u.total ∧ t.skipped = u.skipped := by cases h <;> exact ⟨rfl, rfl⟩

theorem Ended.treePart (h : Ended u t) : t.treePart = u.treePart := by cases h <;> rfl

theorem Ended.code (h : Ended u t) : t.code = u.code := by cases h <;> rfl

theorem Ended.treeValid (h : Ended u t) : t.status.treeValid = u.status.treeValid := by cases h <;> rfl

theorem Ended.operands (h : Ended u t) : (t.arg0, t.arg1, t.cmd) = (u.arg0, u.arg1, u.cmd) := by cases h <;> rfl

theorem Ended.surroundings (h : Ended u t) :
    (t.build, t.agenda, t.resetLine, t.bus) = (u.build, u.agenda, u.resetLine, u.bus) := by cases h <;> rfl

end

/-- A command leaves the machine ended from a state within its areas. -/
theorem exec_ended {i : Instr} {s t : State} (h : exec i s = .next t) : ∃ u, Frame (areasOf i) s u ∧ Ended u t := by
  rcases exec_cases i s with ⟨u, hframe, -, hexec⟩ | ⟨e, info, u, hframe, -, hexec⟩ | ⟨-, hexec⟩ <;>
    cases Host.Outcome.next.inj (h.symm.trans hexec)
  · exact ⟨u, hframe, .done⟩
  · exact ⟨u, hframe, .error e info⟩
  · exact ⟨s, Frame.refl _ s, .running⟩

/-! ### The obligations on all commands -/

/-- Settles O52: what no rule may write, no command changes, and SNK grows in every frame. -/
theorem noCommandTouchesOperandsOrSourceBits : Obligations.NoCommandTouchesOperandsOrSourceBits := by
  intro i s t hexec
  obtain ⟨u, hframe, hended⟩ := exec_ended hexec
  have hfixed := hframe.fixed
  have hoperands := hended.operands
  have hsurroundings := hended.surroundings
  have houtput := hframe.output
  rw [← hended.snk] at houtput
  simp_all [State.fixedPart, hended.src]

/-- Settles O53: SRC and SNK are not among the areas of the commands that are not named. -/
theorem portsAreUsedOnlyByTheirCommands : Obligations.PortsAreUsedOnlyByTheirCommands := by
  intro i s t hexec
  obtain ⟨u, hframe, hended⟩ := exec_ended hexec
  rw [hended.src, hended.snk]
  exact ⟨fun hi => hframe.src (mt src_mem_areasOf hi), fun hi => hframe.snk (mt snk_mem_areasOf hi)⟩

/-- Settles O54: the unit memories are not among the areas of the commands that are not named. -/
theorem memoriesKeepTheirContents : Obligations.MemoriesKeepTheirContents := by
  intro i s t hexec
  obtain ⟨u, hframe, hended⟩ := exec_ended hexec
  rw [hended.freq, hended.totals.1, hended.totals.2, hended.code]
  refine ⟨fun hi => hframe.freq (mt freq_mem_areasOf hi),
    fun hi => Prod.mk.inj (hframe.totals (mt totals_mem_areasOf hi)), fun hi => ?_,
    fun hi => hframe.code (mt code_mem_areasOf hi)⟩
  have htree := hended.treePart.trans (hframe.tree (mt tree_mem_areasOf hi))
  simp only [State.treePart, Prod.mk.injEq] at htree
  obtain ⟨hnode, hroot, hnleaves, hnnodes⟩ := htree
  exact ⟨hnode, hroot, hnleaves, hnnodes, hended.treeValid.trans (hframe.treeFlag (mt treeFlag_mem_areasOf hi))⟩

/-- Settles O56: a run that is cut short has come to a point from which the whole run goes on within the command's
areas, and in every frame SNK only grows. -/
theorem outputGrowsToTheFinalOutput : Obligations.OutputGrowsToTheFinalOutput := by
  intro i s t k hbusy hexec hidle
  have hsofar := ((within_ruleOf i).frame ⟨s, some k⟩).output
  have hpart := (within_ruleOf i).part s k
  have hsnk : t.snk = (endRun ((ruleOf i).run ⟨s, none⟩)).st.snk := by
    rcases exec_cases i s with ⟨u, -, hrun, h⟩ | ⟨e, info, u, -, hrun, h⟩ | ⟨-, h⟩ <;>
      cases Host.Outcome.next.inj (hexec.symm.trans h)
    · rw [hrun]; rfl
    · rw [hrun]; rfl
    · exact absurd hbusy (ne_true_of_eq_false hidle)
  rw [afterActions_eq, hsnk]
  refine ⟨hsofar, ?_⟩
  generalize (ruleOf i).run ⟨s, some k⟩ = cut at hpart ⊢
  generalize (ruleOf i).run ⟨s, none⟩ = whole at hpart ⊢
  cases hpart with
  | ok | raised => exact List.prefix_rfl
  | paused h => exact h.output

end Sys2Proof.Machine
end

section
/-! What the header reader makes of any bits (R243, R335): one turn of `parse()` for each kind of token, the tokens that
leave a subtree still to be read, and, the other way round, the tree behind every header that is read without an error. -/

namespace Sys2Proof.Machine

/-! ### One turn of `parse()` -/

/-- The machine after the first bit of a token was read (R243). -/
def tokenBegun (s : State) : State := addHdrBits 1 (setSrcPos (s.src.pos + 1) (takeSlot s))

section
variable {s : State}

/-- With no slot left `parse()` reads nothing (R335). -/
theorem parse_full (h : s.work.slots = 513) (fuel : Nat) :
    (parse fuel).run ⟨s, none⟩ = .error (.raised .treeOverflow 0) ⟨s, none⟩ := by
  cases fuel with
  | zero => rfl
  | succ fuel => rw [parse, bind_of_ok (getState_run _)]; exact congrArg (EStateM.run · _) (if_pos h)

variable (hroom : s.work.slots ≠ 513) (fuel : Nat)
include hroom

/-- SRC may end before a token (R243). -/
theorem parse_end (hu : s.unread = []) :
    (parse (fuel + 1)).run ⟨s, none⟩ =
      .error (.raised .unexpectedEndOfInput 0) ⟨setSrcPos s.src.bits.length (takeSlot s), none⟩ := by
  have heos : srcLeft (takeSlot s) < 1 := by rw [srcLeft_eq_unread_length]; exact (congrArg List.length hu).trans_lt one_pos
  simp [parse, hroom, srcRead_eos heos]

/-- SRC may end within a leaf's token (R243). -/
theorem parse_leafCut {rest : Bits} (hu : s.unread = true :: rest) (hrest : rest.length < 9) :
    (parse (fuel + 1)).run ⟨s, none⟩ =
      .error (.raised .unexpectedEndOfInput 0) ⟨setSrcPos s.src.bits.length (tokenBegun s), none⟩ := by
  have hbit := srcRead_bit (s := takeSlot s) hu
  have heos : srcLeft (tokenBegun s) < 9 := by
    have hunread : (tokenBegun s).unread = rest := unread_setSrcPos (a := [true]) (s := takeSlot s) hu rfl
    rwa [srcLeft_eq_unread_length, hunread]
  have hsymbol := srcRead_eos heos
  simp only [tokenBegun] at hsymbol
  simp [parse, hroom, hbit, hsymbol, tokenBegun]

/-- An inner node's token has the two subtrees read after it (R243). -/
theorem parse_internal {rest : Bits} (hu : s.unread = false :: rest) :
    (parse (fuel + 1)).run ⟨s, none⟩ = (parse fuel >>= fun left => parse fuel >>= fun right => do
      modState (setNode (slotOf s.work.slots) (.internal left right 0))
      pure (slotOf s.work.slots)).run ⟨tokenBegun s, none⟩ := by
  have hbit := srcRead_bit (s := takeSlot s) hu
  simp [parse, hroom, hbit, tokenBegun]

end

theorem tokenBegun_unread {s : State} {b : Bool} {rest : Bits} (hu : s.unread = b :: rest) :
    (tokenBegun s).unread = rest :=
  unread_setSrcPos (a := [b]) (s := takeSlot s) hu rfl

/-! ### The tree behind a header -/

/-- Bits that begin with a leaf's token (R241). -/
theorem leaf_tokens_of_nine {rest : Bits} (h : 9 ≤ rest.length) :
    ∃ sym rest', true :: rest = (CodeTree.leaf sym).tokens ++ rest' := by
  refine ⟨BitVec.ofNat 9 (bitsToNat (rest.take 9)), rest.drop 9, ?_⟩
  have hlen : (rest.take 9).length = 9 := List.length_take_of_le h
  have hsym : bitsToNat (rest.take 9) % 2 ^ 9 = bitsToNat (rest.take 9) :=
    Nat.mod_eq_of_lt ((bitsToNat_lt _).trans_eq (by rw [hlen]))
  have hbits := natToBits_bitsToNat (rest.take 9)
  rw [hlen] at hbits
  rw [CodeTree.tokens, BitVec.toNat_ofNat, hsym, hbits, List.cons_append, List.take_append_drop]

/-- Where `parse()` ends well, SRC held the token of a tree that the slots left had room for (R243). -/
theorem parse_ok {fuel : Nat} {s : State} {i : Slot} {r : Run} (h : (parse fuel).run ⟨s, none⟩ = .ok i r)
    (hslots : s.work.slots ≤ 513) (hfuel : 514 ≤ fuel + s.work.slots) :
    ∃ (tree : CodeTree) (rest : Bits), s.unread = tree.tokens ++ rest ∧ s.work.slots + tree.nodeCount ≤ 513 := by
  induction fuel generalizing s i r with
  | zero => omega
  | succ fuel ih =>
    by_cases hfull : s.work.slots = 513
    · rw [parse_full hfull] at h
      cases h
    rcases hu : s.unread with _ | ⟨_ | _, rest⟩
    · rw [parse_end hfull fuel hu] at h
      cases h
    · rw [parse_internal hfull fuel hu] at h
      obtain ⟨i, r, hl, h⟩ := bind_eq_ok.1 h
      obtain ⟨j, r', hr, -⟩ := bind_eq_ok.1 h
      have hslot : (tokenBegun s).work.slots = s.work.slots + 1 := rfl
      obtain ⟨l, rest₁, hul, hnl⟩ := ih hl (by omega) (by omega)
      rw [parse_run hul hnl (by omega)] at hl
      cases hl
      have hslot' : (parsed l (tokenBegun s)).work.slots = s.work.slots + 1 + l.nodeCount := rfl
      obtain ⟨r, rest₂, hur, hnr⟩ := ih hr (by omega) (by omega)
      refine ⟨.node l r, rest₂, ?_, by rw [CodeTree.nodeCount]; omega⟩
      have hrest₁ : (parsed l (tokenBegun s)).unread = rest₁ := unread_setSrcPos hul rfl
      rw [← tokenBegun_unread hu, hul, ← hrest₁, hur, CodeTree.tokens, List.cons_append, List.append_assoc]
    · by_cases hrest : rest.length < 9
      · rw [parse_leafCut hfull fuel hu hrest] at h
        cases h
      · obtain ⟨sym, rest', htokens⟩ := leaf_tokens_of_nine (Nat.not_lt.1 hrest)
        exact ⟨.leaf sym, rest', htokens, by rw [CodeTree.nodeCount]; omega⟩

/-- The machine as `read_header()` gives it to `parse()` (R243). -/
def headerBegun (s : State) : State :=
  { setSrcPos (s.src.pos + 32) s with nleaves := 0, work := { s.work with slots := 0, hdrBits := 32 } }

/-- After the right magic the tree is read (R243). -/
theorem readHeaderTokens_magic {s : State} {rest : Bits} (hu : s.unread = s.magicBits ++ rest) :
    readHeaderTokens.run ⟨s, none⟩ =
      (parse parseFuel >>= fun root => modState fun s => { s with root := root, nnodes := s.work.slots }).run
        ⟨headerBegun s, none⟩ := by
  have hmagic : BitVec.ofNat 32 (s.build.hdrMagic.toNat % 2 ^ 32) = s.build.hdrMagic := by
    rw [Nat.mod_eq_of_lt s.build.hdrMagic.isLt, BitVec.ofNat_toNat, BitVec.setWidth_eq]
  rw [readHeaderTokens, bind_of_ok (srcRead_field hu), bind_of_ok (getState_run _), hmagic, setSrcPos_build,
    if_neg (not_not_intro rfl), bind_of_ok (modState_run ..)]
  rfl

theorem headerBegun_unread {s : State} {rest : Bits} (hu : s.unread = s.magicBits ++ rest) :
    (headerBegun s).unread = rest :=
  unread_setSrcPos hu (natToBits_length ..)

/-- Bits that are long enough begin with some word (R85). -/
theorem natToBits_of_length {n : Nat} {b : Bits} (h : n ≤ b.length) :
    ∃ w : BitVec n, b = natToBits n w.toNat ++ b.drop n := by
  refine ⟨BitVec.ofNat n (bitsToNat (b.take n)), ?_⟩
  have hlen : (b.take n).length = n := List.length_take_of_le h
  have hw : bitsToNat (b.take n) % 2 ^ n = bitsToNat (b.take n) :=
    Nat.mod_eq_of_lt ((bitsToNat_lt _).trans_eq (by rw [hlen]))
  have hbits := natToBits_bitsToNat (b.take n)
  rw [hlen] at hbits
  rw [BitVec.toNat_ofNat, hw, hbits, List.take_append_drop]

/-- Where a header is read without an error, SRC held the header of a tree that fits the node memory (R243). -/
theorem readHeaderTokens_ok {s : State} {r : Run} (h : readHeaderTokens.run ⟨s, none⟩ = .ok () r) :
    ∃ (tree : CodeTree) (rest : Bits), s.unread = s.magicBits ++ tree.tokens ++ rest ∧ tree.nodeCount ≤ 513 := by
  by_cases hshort : s.unread.length < 32
  · rw [readHeaderTokens_short hshort] at h
    cases h
  obtain ⟨w, hu⟩ := natToBits_of_length (Nat.not_lt.1 hshort)
  by_cases hw : w = s.build.hdrMagic
  case neg =>
    rw [readHeaderTokens_foreign hu hw] at h
    cases h
  subst hw
  rw [readHeaderTokens_magic hu] at h
  obtain ⟨i, r', hparse, -⟩ := bind_eq_ok.1 h
  have hslots : (headerBegun s).work.slots = 0 := rfl
  obtain ⟨tree, rest, htree, hnodes⟩ := parse_ok hparse (by omega) (by rw [hslots, parseFuel])
  rw [headerBegun_unread hu] at htree
  exact ⟨tree, rest, by rw [hu, htree, State.magicBits, List.append_assoc], by omega⟩

/-! ### Tokens that leave a subtree to be read -/

/-- The tokens of a tree (R241). -/
def CodeTree.headerTokens : CodeTree → List HeaderToken
  | .leaf sym => [.leaf sym]
  | .node l r => .internal :: (l.headerTokens ++ r.headerTokens)

theorem headerTokens_bits (tree : CodeTree) : tree.headerTokens.flatMap HeaderToken.bits = tree.tokens := by
  induction tree with
  | leaf sym => simp [CodeTree.headerTokens, CodeTree.tokens, HeaderToken.bits]
  | node l r ihl ihr => simp [CodeTree.headerTokens, CodeTree.tokens, HeaderToken.bits, ihl, ihr]

theorem headerTokens_length (tree : CodeTree) : tree.headerTokens.length = tree.nodeCount := by
  induction tree with
  | leaf sym => rfl
  | node l r ihl ihr => simp [CodeTree.headerTokens, CodeTree.nodeCount, ihl, ihr]

/-- The tokens of a whole tree leave one subtree fewer to be read. -/
theorem staysOpen_headerTokens (tree : CodeTree) (n : Nat) (rest : List HeaderToken) :
    staysOpen (n + 1) (tree.headerTokens ++ rest) = staysOpen n rest := by
  induction tree generalizing n rest with
  | leaf sym => rfl
  | node l r ihl ihr =>
    rw [CodeTree.headerTokens, List.cons_append, List.append_assoc, staysOpen, ihl, ihr]

/-- With one subtree more to be read there is still one. -/
theorem staysOpen_succ {n : Nat} {tokens : List HeaderToken} (h : staysOpen n tokens = true) :
    staysOpen (n + 1) tokens = true := by
  induction tokens generalizing n with
  | nil => rfl
  | cons token tokens ih =>
    cases n with
    | zero => cases h
    | succ n => cases token <;> exact ih h

/-- Tokens that leave some of n + 1 subtrees to be read end within the first one, or after it within the others. -/
theorem staysOpen_cases {n : Nat} {tokens : List HeaderToken} (h : staysOpen (n + 1) tokens = true) :
    staysOpen 1 tokens = true ∨
      ∃ (tree : CodeTree) (rest : List HeaderToken), tokens = tree.headerTokens ++ rest ∧ staysOpen n rest = true := by
  induction hlen : tokens.length using Nat.strongRecOn generalizing n tokens with
  | ind len ih =>
    subst hlen
    match tokens, h with
    | [], _ => exact .inl rfl
    | .leaf sym :: rest, h => exact .inr ⟨.leaf sym, rest, rfl, h⟩
    | .internal :: rest, hopen =>
      rcases ih _ (Nat.lt_succ_self _) (n := n + 1) hopen rfl with hleft | ⟨l, rest, rfl, h⟩
      · exact .inl (staysOpen_succ (n := 1) hleft)
      · have hshorter : rest.length < (HeaderToken.internal :: (l.headerTokens ++ rest)).length := by simp
        rcases ih _ hshorter h rfl with hright | ⟨r, rest, rfl, hrest⟩
        · exact .inl ((staysOpen_headerTokens l 1 rest).trans hright)
        · exact .inr ⟨.node l r, rest, by simp [CodeTree.headerTokens], hrest⟩

/-- `u` is s with some of a header read: SRC's cursor has moved by n, and the tree memory may have changed. -/
def ReadOn (n : Nat) (s u : State) : Prop :=
  ∃ node nleaves work, u =
    { s with node := node, nleaves := nleaves, work := work, src := { s.src with pos := s.src.pos + n } }

theorem ReadOn.trans {m n : Nat} {s u v : State} (h : ReadOn m s u) (h' : ReadOn n u v) : ReadOn (m + n) s v := by
  obtain ⟨_, _, _, rfl⟩ := h
  obtain ⟨node, nleaves, work, rfl⟩ := h'
  exact ⟨node, nleaves, work, by simp [Nat.add_assoc]⟩

theorem readOn_tokenBegun (s : State) : ReadOn 1 s (tokenBegun s) := ⟨_, _, _, rfl⟩

theorem readOn_parsed (tree : CodeTree) (s : State) : ReadOn tree.tokens.length s (parsed tree s) := ⟨_, _, _, rfl⟩

/-- Reading tokens that leave a subtree to be read comes to another turn of `parse()`, and an error there ends it. -/
theorem parse_open {fuel : Nat} {s : State} {tokens : List HeaderToken} {rest : Bits} (hopen : staysOpen 1 tokens = true)
    (hu : s.unread = tokens.flatMap HeaderToken.bits ++ rest) (hroom : s.work.slots + tokens.length ≤ 513)
    (hfuel : 514 ≤ fuel + s.work.slots) :
    ∃ fuel' u, ReadOn (tokens.flatMap HeaderToken.bits).length s u ∧ u.unread = rest ∧
      u.work.slots = s.work.slots + tokens.length ∧ 514 ≤ fuel' + u.work.slots ∧
      ∀ e r, (parse fuel').run ⟨u, none⟩ = .error e r → (parse fuel).run ⟨s, none⟩ = .error e r := by
  induction fuel generalizing s tokens with
  | zero => omega
  | succ fuel ih =>
    match tokens, hopen with
    | [], _ => exact ⟨fuel + 1, s, ⟨_, _, _, rfl⟩, hu, rfl, hfuel, fun e r h => h⟩
    | .leaf _ :: _, hclosed => simp [staysOpen] at hclosed
    | .internal :: tokens, hopen =>
      rw [List.length_cons] at hroom
      have hbegun : (tokenBegun s).unread = tokens.flatMap HeaderToken.bits ++ rest := tokenBegun_unread hu
      have hslots : (tokenBegun s).work.slots = s.work.slots + 1 := rfl
      rw [parse_internal (by omega) fuel hu]
      rcases staysOpen_cases (n := 1) (tokens := tokens) hopen with hleft | ⟨l, tokens, rfl, hright⟩
      · obtain ⟨fuel', u, hread, hrest, hslots', hfuel', herror⟩ := ih hleft hbegun (by omega) (by omega)
        refine ⟨fuel', u, (readOn_tokenBegun s).trans hread |> (by simpa [HeaderToken.bits, Nat.add_comm] using ·), hrest,
          by rw [hslots', List.length_cons]; omega, hfuel', fun e r h => bind_of_error (herror e r h)⟩
      · rw [List.length_append, headerTokens_length] at hroom
        rw [List.flatMap_append, headerTokens_bits, List.append_assoc] at hbegun
        have hl := parse_run (fuel := fuel) hbegun (by omega) (by omega)
        have hafter : (parsed l (tokenBegun s)).unread = tokens.flatMap HeaderToken.bits ++ rest :=
          unread_setSrcPos hbegun rfl
        have hslots' : (parsed l (tokenBegun s)).work.slots = s.work.slots + 1 + l.nodeCount := rfl
        obtain ⟨fuel', u, hread, hrest, hslots'', hfuel', herror⟩ := ih hright hafter (by omega) (by omega)
        refine ⟨fuel', u, ?_, hrest, ?_, hfuel', fun e r h => ?_⟩
        · simpa [HeaderToken.bits, headerTokens_bits, Nat.add_comm, Nat.add_left_comm, Nat.add_assoc] using
            ((readOn_tokenBegun s).trans (readOn_parsed l _)).trans hread
        · rw [hslots'', List.length_cons, List.length_append, headerTokens_length]
          omega
        · rw [bind_of_ok hl]
          exact bind_of_error (herror e r h)

/-- A part of a token that is not the whole of it (R241). -/
theorem proper_prefix_of_token {part : Bits} {token : HeaderToken} (h : part <+: token.bits) (hne : part ≠ token.bits) :
    part = [] ∨ ∃ rest, part = true :: rest ∧ rest.length < 9 := by
  have hlt : part.length < token.bits.length := h.length_le.lt_of_ne fun heq => hne (h.eq_of_length heq)
  cases part with
  | nil => exact .inl rfl
  | cons b rest =>
    cases token with
    | internal => simp [HeaderToken.bits] at hlt
    | leaf sym =>
      obtain ⟨rfl, -⟩ := List.cons_prefix_cons.1 h
      rw [HeaderToken.bits, List.length_cons, List.length_cons, natToBits_length] at hlt
      exact .inr ⟨rest, rfl, Nat.lt_of_succ_lt_succ hlt⟩

/-- SRC ends within the next token (R243). -/
theorem parse_cut {fuel : Nat} {s : State} {part : Bits} {token : HeaderToken} (hu : s.unread = part)
    (hpart : part <+: token.bits) (hne : part ≠ token.bits) (hroom : s.work.slots ≠ 513) :
    ∃ node nleaves work, (parse (fuel + 1)).run ⟨s, none⟩ = .error (.raised .unexpectedEndOfInput 0)
      ⟨{ s with node := node, nleaves := nleaves, work := work, src := { s.src with pos := s.src.bits.length } },
        none⟩ := by
  rcases proper_prefix_of_token hpart hne with rfl | ⟨rest, rfl, hrest⟩
  · exact ⟨_, _, _, parse_end hroom fuel hu⟩
  · exact ⟨_, _, _, parse_leafCut hroom fuel hu hrest⟩

/-! ### The obligations -/

/-- Reading a header whose tokens leave a subtree to be read comes to one more turn of `parse()`, and an error there
ends it. -/
theorem readHeaderTokens_open {s : State} {tokens : List HeaderToken} {rest : Bits} (hopen : staysOpen 1 tokens = true)
    (hu : s.unread = s.magicBits ++ (tokens.flatMap HeaderToken.bits ++ rest)) (hlen : tokens.length ≤ 513) :
    ∃ fuel u, ReadOn (32 + (tokens.flatMap HeaderToken.bits).length) s u ∧ u.unread = rest ∧
      u.work.slots = tokens.length ∧ 514 ≤ fuel + tokens.length ∧
      ∀ e r, (parse fuel).run ⟨u, none⟩ = .error e r → readHeaderTokens.run ⟨s, none⟩ = .error e r := by
  have hslots : (headerBegun s).work.slots = 0 := rfl
  obtain ⟨fuel, u, hread, hrest, hslots', hfuel, herror⟩ := parse_open (fuel := parseFuel) hopen
    (headerBegun_unread hu) (by omega) (by rw [hslots, parseFuel])
  rw [hslots, Nat.zero_add] at hslots'
  have hbegun : ReadOn 32 s (headerBegun s) := ⟨_, _, _, rfl⟩
  refine ⟨fuel, u, hbegun.trans hread, hrest, hslots', hslots' ▸ hfuel, fun e r h => ?_⟩
  exact (readHeaderTokens_magic hu).trans (bind_of_error (herror e r h))

/-- Settles O40: the tokens lead to one more turn of `parse()`, which finds the end of SRC or no slot left. -/
theorem badTreeTokensAreReported : Obligations.BadTreeTokensAreReported := by
  intro s i tokens hi hopen
  refine ⟨fun part next hlen hpart hne hu => ?_, fun rest hlen hu => ?_⟩ <;> rw [List.append_assoc] at hu
  · obtain ⟨fuel, u, ⟨node, nleaves, work, rfl⟩, hrest, hslots, hfuel, herror⟩ :=
      readHeaderTokens_open (s := putNothingValid s) hopen hu (by omega)
    obtain ⟨fuel, rfl⟩ := Nat.exists_eq_succ_of_ne_zero (by omega : fuel ≠ 0)
    obtain ⟨_, _, _, hcut⟩ := parse_cut (fuel := fuel) hrest hpart hne (by omega)
    exact exec_headerError hi (herror _ _ hcut)
  · obtain ⟨fuel, u, ⟨node, nleaves, work, rfl⟩, -, hslots, -, herror⟩ :=
      readHeaderTokens_open (s := putNothingValid s) hopen hu (by omega)
    have herr := exec_headerError hi (herror _ _ (parse_full (hslots.trans hlen) fuel))
    rw [← Nat.add_assoc] at herr
    exact herr

/-- The slots of a tree that was read are numbered in pre-order (R244). -/
theorem slotsOf_rebuilt_val {tree : CodeTree} (hnodes : tree.nodeCount ≤ 513) (node : Vector Node 513) :
    (slotsOf (rebuilt tree 0 node) walkFuel 0).map Fin.val = List.range tree.nodeCount := by
  rw [(rebuilt_walk hnodes node).2, slotRun, List.map_map, ← List.range_eq_range']
  exact (List.map_congr_left fun n hn => slotOf_val (by have := List.mem_range.1 hn; omega)).trans (List.map_id _)

/-- Settles O38: the tree stands in consecutive slots from slot 0 on, in pre-order. -/
theorem hcReadRebuildsTheTree : Obligations.HcReadRebuildsTheTree :=
  fun s _ _ hu hnodes =>
    ⟨_, holdsRebuilt_rebuilt hnodes s.node, slotsOf_rebuilt_val hnodes s.node, exec_hcRead hu hnodes⟩

end Sys2Proof.Machine
end

section
/-! CT_MAKE (R220, R221): a walk over a tree records its leaves up to the first one whose symbol is above 256 or was met
before, and fills the table where there is none. -/

namespace Sys2Proof.Machine

/-! ### The first faulty leaf -/

/-- A leaf's symbol that CT_MAKE cannot record after the symbols before it (R221). -/
def FaultAfter (before : List (BitVec 9)) (sym : BitVec 9) : Prop := 256 < sym.toNat ∨ sym ∈ before

/-- Symbols that CT_MAKE records one after the other (R221). -/
def Recordable (syms : List (BitVec 9)) : Prop := syms.Nodup ∧ ∀ sym ∈ syms, sym.toNat ≤ 256

theorem recordable_concat {syms : List (BitVec 9)} {sym : BitVec 9} (h : Recordable syms) (hsym : ¬ FaultAfter syms sym) :
    Recordable (syms ++ [sym]) := by
  obtain ⟨hnodup, hle⟩ := h
  simp only [FaultAfter, not_or, Nat.not_lt] at hsym
  refine ⟨List.nodup_append.2 ⟨hnodup, List.nodup_singleton sym, ?_⟩,
    List.forall_mem_append.2 ⟨hle, List.forall_mem_singleton.2 hsym.1⟩⟩
  rintro x hx y hy rfl
  exact hsym.2 (List.mem_singleton.1 hy ▸ hx)

/-- Symbols are recorded all, or up to a first fault. -/
theorem recordable_or_fault (syms : List (BitVec 9)) :
    Recordable syms ∨ ∃ pre sym post, syms = pre ++ sym :: post ∧ Recordable pre ∧ FaultAfter pre sym := by
  induction syms using List.reverseRecOn with
  | nil => exact .inl ⟨List.nodup_nil, by simp⟩
  | append_singleton syms sym ih =>
    rcases ih with hall | ⟨pre, bad, post, rfl, hpre, hbad⟩
    · by_cases hsym : FaultAfter syms sym
      · exact .inr ⟨syms, sym, [], rfl, hall, hsym⟩
      · exact .inl (recordable_concat hall hsym)
    · exact .inr ⟨pre, bad, post ++ [sym], by simp, hpre, hbad⟩

/-- The error of the first fault (R221, R335). -/
def faultKind (sym : BitVec 9) : ErrKind := if 256 < sym.toNat then .invalidSymbol else .treeError

/-- A table has an entry for each leaf that was recorded. -/
theorem codeTable_present {leaves : List (BitVec 9 × Bits)} {sym : BitVec 9} (hsym : sym.toNat < 257)
    (h : sym ∈ leaves.map Prod.fst) : (codeTable leaves)[sym.toNat].present = true := by
  obtain ⟨p, hp, rfl⟩ := List.mem_map.1 h
  obtain ⟨q, hq⟩ := Option.isSome_iff_exists.1 ((List.find?_isSome (p := fun q => q.1 == p.1)).2
    ⟨p, hp, beq_self_eq_true p.1⟩)
  simp [codeTable, hq, entryOfPath]

/-- Recording stops at the first fault, with the entries of the leaves before it (R221). -/
theorem recordAll_fault (s : State) {pre post : List (BitVec 9 × Bits)} {bad : BitVec 9 × Bits}
    (hpre : Recordable (pre.map Prod.fst)) (hbad : FaultAfter (pre.map Prod.fst) bad.1) :
    (recordAll (pre ++ bad :: post)).run ⟨{ s with code := codeTable [] }, none⟩ =
      .error (.raised (faultKind bad.1) (bad.1.setWidth 32)) ⟨{ s with code := codeTable pre }, none⟩ := by
  have hrecorded := recordAll_run s (before := []) (leaves := pre) hpre.1 fun p hp =>
    Nat.lt_succ_of_le (hpre.2 _ (List.mem_map_of_mem hp))
  rw [recordAll_append, bind_of_ok hrecorded, recordAll]
  refine bind_of_error ?_
  rcases recordCode_cases bad.1 bad.2 ⟨{ s with code := codeTable pre }, none⟩ with
    ⟨hlt, habsent, -⟩ | ⟨hlt, -, h⟩ | ⟨hge, h⟩
  · have hmem := hbad.resolve_left (by omega)
    exact absurd (codeTable_present hlt hmem) (ne_true_of_eq_false habsent)
  · rw [List.nil_append, h, faultKind, if_neg (by omega)]
  · rw [List.nil_append, h, faultKind, if_pos (by omega)]

section
variable {s : State} {tree : CodeTree} (htree : s.tree = some tree)
include htree

/-- Filling the table from a tree is recording its leaves in pre-order (R220, R221). -/
theorem fillCode_eq_recordAll :
    fillCode.run ⟨s, none⟩ = (recordAll tree.codes).run ⟨{ s with code := codeTable [] }, none⟩ := by
  rw [fillCode, bind_of_ok (modState_run ..), bind_of_ok (getState_run _), clearCode, ← codeTable_nil]
  exact visit_run (path := []) (r := ⟨{ s with code := codeTable [] }, none⟩) htree

/-- Filling the table stops at the first faulty leaf (R221). -/
theorem fillCode_fault {pre post : List (BitVec 9)} {sym : BitVec 9} (hsyms : tree.symbols = pre ++ sym :: post)
    (hpre : Recordable pre) (hsym : FaultAfter pre sym) :
    ∃ code, fillCode.run ⟨s, none⟩ =
      .error (.raised (faultKind sym) (sym.setWidth 32)) ⟨{ s with code := code }, none⟩ := by
  obtain ⟨before, after, hcodes, rfl, hafter⟩ := List.map_eq_append_iff.1 hsyms
  obtain ⟨bad, after, rfl, rfl, -⟩ := List.map_eq_cons_iff.1 hafter
  rw [fillCode_eq_recordAll htree, hcodes]
  exact ⟨_, recordAll_fault s hpre hsym⟩

end

/-! ### The rule of CT_MAKE -/

/-- What CT_MAKE does between its two writes of TABLE_VALID (R220). -/
def ctMakeFill : Cmd Unit :=
  unspecifiedOnError scrambleCode do
    let s ← getState
    if s.status.treeValid = false then raise .preconditionError 0
    else fillCode

theorem ruleCtMake_eq : ruleCtMake = (modState (putTableValid false) >>= fun _ => ctMakeFill >>= fun _ =>
    completing >>= fun _ => modState (putTableValid true)) := rfl

theorem within_ctMakeFill : Within [.code] ctMakeFill := by
  refine .unspecifiedOnError (fun _ => frame_scrambleCode (by decide)) (.bind .getState fun s => ?_)
  split
  · exact .raise ..
  · exact within_fillCode (by decide)

section
variable {s : State}

theorem ctMakeFill_run_of_tree {r : Run} (h : r.st.status.treeValid = true) :
    ctMakeFill.run r = (unspecifiedOnError scrambleCode fillCode).run r := by
  rw [ctMakeFill, unspecifiedOnError_run, unspecifiedOnError_run, bind_of_ok (getState_run _),
    if_neg (ne_false_of_eq_true h)]

/-- The end of CT_MAKE in an error leaves TABLE_VALID = 0 and CODE with any values (R220). -/
theorem exec_ctMake_raised {u : State} {e : ErrKind} {info : Word}
    (h : ctMakeFill.run ⟨putTableValid false s, none⟩ = .error (.raised e info) ⟨scrambleCode u, none⟩) :
    ∃ t code, exec .ctMake s = .next t ∧ EndsInError e info { u with code := code } t := by
  obtain ⟨t, hexec, r0, r1, d, ht⟩ := exec_raised (i := .ctMake) ((bind_of_ok (modState_run ..)).trans (bind_of_error h))
  exact ⟨t, _, hexec, r0, r1, d, ht⟩

theorem exec_ctMake_noTree (h : s.status.treeValid = false) :
    ∃ t code, exec .ctMake s = .next t ∧ EndsInError .preconditionError 0
      { s with status := s.status.withValid false false, code := code } t := by
  have hcheck : ctMakeFill.run ⟨putTableValid false s, none⟩ =
      .error (.raised .preconditionError 0) ⟨scrambleCode (putTableValid false s), none⟩ := by
    rw [ctMakeFill, unspecifiedOnError_run, bind_of_ok (getState_run _), putTableValid_status, if_pos h, raise_run]
  have hstatus : (putTableValid false s).status = s.status.withValid false false := by
    rw [putTableValid_status, Status.withValid, ← h]
  obtain ⟨t, code, hexec, hend⟩ := exec_ctMake_raised hcheck
  exact ⟨t, code, hexec, by rw [← hstatus]; exact hend⟩

variable {tree : CodeTree} (hvalid : s.status.treeValid = true) (htree : s.tree = some tree)
include hvalid htree

theorem exec_ctMake_fault {pre post : List (BitVec 9)} {sym : BitVec 9} (hsyms : tree.symbols = pre ++ sym :: post)
    (hpre : Recordable pre) (hsym : FaultAfter pre sym) :
    ∃ t code, exec .ctMake s = .next t ∧ EndsInError (faultKind sym) (sym.setWidth 32)
      { s with status := s.status.withValid true false, code := code } t := by
  obtain ⟨code, hfill⟩ := fillCode_fault (s := putTableValid false s) htree hsyms hpre hsym
  have hraised : ctMakeFill.run ⟨putTableValid false s, none⟩ =
      .error (.raised (faultKind sym) (sym.setWidth 32))
        ⟨scrambleCode { putTableValid false s with code := code }, none⟩ := by
    rw [ctMakeFill_run_of_tree hvalid, unspecifiedOnError_run, hfill]
  have hstatus : (putTableValid false s).status = s.status.withValid true false := by
    rw [putTableValid_status, Status.withValid, ← hvalid]
  obtain ⟨t, code', hexec, hend⟩ := exec_ctMake_raised hraised
  exact ⟨t, code', hexec, by rw [← hstatus]; exact hend⟩

theorem exec_ctMake_table (hsyms : Recordable tree.symbols) :
    exec .ctMake s = .next (done { s with status := s.status.withValid true true, code := tree.table }) := by
  have hfill := fillCode_run (s := putTableValid false s) htree hsyms.1 fun sym h => Nat.lt_succ_of_le (hsyms.2 sym h)
  have hok : ctMakeFill.run ⟨putTableValid false s, none⟩ =
      .ok () ⟨{ putTableValid false s with code := tree.table }, none⟩ := by
    rw [ctMakeFill_run_of_tree hvalid, unspecifiedOnError_run, hfill]
  have hstatus : s.status.withValid true true = { s.status with tableValid := true } := by
    rw [Status.withValid, ← hvalid]
  rw [exec_of_ok (i := .ctMake) ((bind_of_ok (modState_run ..)).trans ((bind_of_ok hok).trans
    ((bind_of_ok (completing_unlimited _)).trans (modState_run ..)))), hstatus]
  rfl

end

/-- Settles O32: the flag is cleared first, and then the tree is asked for and its leaves are recorded up to a fault. -/
theorem ctMakeReportsTheFirstFault : Obligations.CtMakeReportsTheFirstFault := by
  refine fun s => ⟨exec_ctMake_noTree, fun tree pre post sym hvalid htree hsyms hnodup hle => ⟨fun h => ?_, fun h => ?_⟩⟩
  · have hfault := exec_ctMake_fault hvalid htree hsyms ⟨hnodup, hle⟩ (.inl h)
    rwa [faultKind, if_pos h] at hfault
  · have hfault := exec_ctMake_fault hvalid htree hsyms ⟨hnodup, hle⟩ (.inr h)
    rwa [faultKind, if_neg (Nat.not_lt.2 (hle sym h))] at hfault

/-- While CT_MAKE is still to be seen running, it has not come to its last write (R220). -/
theorem tableValid_afterActions_ctMake (s : State) (k : Nat) :
    (afterActions (ruleOf .ctMake) k s).status.tableValid = false := by
  have hflag := (within_ctMakeFill.frame ⟨putTableValid false s, some k⟩).tableFlag (by decide)
  obtain ⟨k', hlimited⟩ := within_ctMakeFill.limited (putTableValid false s) k
  rw [afterActions_eq]
  change (endRun (ruleCtMake.run _)).st.status.tableValid = false
  rw [ruleCtMake_eq, bind_of_ok (modState_run ..)]
  rcases hfill : ctMakeFill.run ⟨putTableValid false s, some k⟩ with ⟨a, ⟨u, left⟩⟩ | ⟨e, r⟩ <;>
    rw [hfill] at hflag hlimited
  · obtain rfl : left = some k' := hlimited
    rw [bind_of_ok hfill, bind_of_error (completing_limited u k')]
    exact hflag
  · rw [bind_of_error hfill]
    exact hflag

/-- Settles O31. -/
theorem ctMakeFillsTheTable : Obligations.CtMakeFillsTheTable :=
  ⟨fun _ _ hvalid htree hnodup hle => exec_ctMake_table hvalid htree ⟨hnodup, hle⟩, tableValid_afterActions_ctMake⟩

end Sys2Proof.Machine
end

section
/-! What every step keeps (R37, R46, R48, R49): the rules of the STATUS flags, of the tree and of the code table, in the
state and in what a host sees of a running command. -/

namespace Sys2Proof.Machine

/-! ### Assertions about rules -/

section
variable {α β : Type}

/-- From a state with P, x ends well with Q, or it stops, by an error or because it is to go on later, with E. -/
def Leads (P : State → Prop) (x : Cmd α) (Q : α → State → Prop) (E : State → Prop) : Prop :=
  ∀ r, P r.st → match x.run r with
    | .ok a r' => Q a r'.st
    | .error _ r' => E r'.st

variable {P P' E : State → Prop} {Q : α → State → Prop} {x : Cmd α}

theorem Leads.of_imp (h : Leads P x Q E) (hP : ∀ s, P' s → P s) : Leads P' x Q E := fun r hr => h r (hP _ hr)

theorem Leads.bind {f : α → Cmd β} {Q' : β → State → Prop} (hx : Leads P x Q E) (hf : ∀ a, Leads (Q a) (f a) Q' E) :
    Leads P (x >>= f) Q' E := by
  intro r hr
  have h := hx r hr
  rw [bind_run]
  generalize x.run r = result at h ⊢
  cases result with
  | ok a r' => exact hf a r' h
  | error e r' => exact h

/-- What is read of the state is known of it. -/
theorem Leads.bind_getState {f : State → Cmd β} {Q' : β → State → Prop} (hf : ∀ s, P s → Leads (· = s) (f s) Q' E) :
    Leads P (getState >>= f) Q' E := fun r hr => hf r.st hr r rfl

theorem Leads.modState {f : State → State} {Q : Unit → State → Prop} (h : ∀ s, P s → Q () (f s)) :
    Leads P (modState f) Q E := fun _ hr => h _ hr

theorem Leads.pure {a : α} (h : ∀ s, P s → Q a s) : Leads P (pure a) Q E := fun _ hr => h _ hr

theorem Leads.raise {e : ErrKind} {info : Word} (h : ∀ s, P s → E s) : Leads P (raise e info) Q E :=
  fun _ hr => h _ hr

theorem Leads.completing (h : ∀ s, P s → E s) : Leads P completing (fun _ => P) E
  | ⟨_, none⟩, hr => hr
  | ⟨_, some _⟩, hr => h _ hr

/-- An action comes before the write of a flag, and the rule may stop there. -/
theorem Leads.tick_modState {f : State → State} (h : ∀ s, P s → E s) {Q : Unit → State → Prop}
    (hf : ∀ s, P s → Q () (f s)) : Leads P (tick >>= fun _ => Machine.modState f) Q E
  | ⟨_, none⟩, hr => hf _ hr
  | ⟨_, some 0⟩, hr => h _ hr
  | ⟨_, some (_ + 1)⟩, hr => hf _ hr

theorem Leads.unspecifiedOnError {f : State → State} (h : Leads P x Q E) (hf : ∀ s, E s → E (f s)) :
    Leads P (unspecifiedOnError f x) Q E := by
  intro r hr
  have h := h r hr
  rw [unspecifiedOnError_run]
  generalize x.run r = result at h ⊢
  rcases result with ⟨a, r'⟩ | ⟨e | _, r'⟩
  · exact h
  · exact hf _ h
  · exact h

/-- The weaker assertion where it stops. -/
theorem Leads.of_stop {E' : State → Prop} (h : Leads P x Q E) (hE : ∀ s, E s → E' s) : Leads P x Q E' := by
  intro r hr
  have h := h r hr
  generalize x.run r = result at h ⊢
  cases result with
  | ok a r' => exact h
  | error e r' => exact hE _ h

/-- What every write within some areas keeps, a rule within them keeps, wherever it stops. -/
theorem Within.leads {w : List Area} (hx : Within w x) (h : ∀ s t, Frame w s t → P s → P t) :
    Leads P x (fun _ => P) P := by
  intro r hr
  have hframe := hx.frame r
  generalize x.run r = result at hframe ⊢
  cases result with
  | ok a r' => exact h _ _ hframe hr
  | error e r' => exact h _ _ hframe hr

/-- Where a rule ends well, more may be known than where it stops. -/
theorem Leads.and_ok {Q' : α → State → Prop} (h : Leads P x Q E)
    (hok : ∀ r a r', P r.st → x.run r = .ok a r' → Q' a r'.st) : Leads P x (fun a s => Q a s ∧ Q' a s) E := by
  intro r hr
  have hx := h r hr
  have hx' := hok r
  generalize x.run r = result at hx hx' ⊢
  cases result with
  | ok a r' => exact ⟨hx, hx' a r' hr rfl⟩
  | error e r' => exact hx

end

/-! ### The tree and the table -/

/-- The rules of the tree while TREE_VALID is 1 (R46). -/
def State.HasTree (s : State) : Prop :=
  ∃ t, s.tree = some t ∧ (slotsOf s.node walkFuel s.root).Nodup ∧
    t.leafCount = s.nleaves ∧ t.nodeCount = s.nnodes ∧ s.nnodes + 1 = 2 * s.nleaves

/-- The rules of the table while TABLE_VALID is 1 (R48). -/
def State.HasTable (s : State) : Prop := ∃ t, s.tree = some t ∧ Recordable t.symbols ∧ s.code = t.table

/-- The invariants of the tree and the code table. -/
def State.Sound (s : State) : Prop := s.treeInv ∧ s.tableInv

section
variable {s t : State}

theorem treeInv_iff : s.treeInv ↔ (s.status.treeValid = true → s.HasTree) := Iff.rfl

theorem tableInv_iff : s.tableInv ↔ (s.status.tableValid = true → s.status.treeValid = true ∧ s.HasTable) := by
  simp only [State.tableInv, State.HasTable, Recordable, and_assoc]

theorem hasTree_congr (h : t.treePart = s.treePart) : t.HasTree ↔ s.HasTree := by
  simp only [State.treePart, Prod.mk.injEq] at h
  obtain ⟨hnode, hroot, hnleaves, hnnodes⟩ := h
  rw [State.HasTree, State.HasTree, tree_congr hnode hroot, hnode, hroot, hnleaves, hnnodes]

theorem hasTable_congr (h : t.treePart = s.treePart) (hcode : t.code = s.code) : t.HasTable ↔ s.HasTable := by
  simp only [State.treePart, Prod.mk.injEq] at h
  obtain ⟨hnode, hroot, -⟩ := h
  rw [State.HasTable, State.HasTable, tree_congr hnode hroot, hcode]

/-- The invariants speak of the tree, the table and their flags. -/
theorem sound_congr (h : t.treePart = s.treePart) (hcode : t.code = s.code)
    (hvalid : t.status.treeValid = s.status.treeValid) (hflag : t.status.tableValid = s.status.tableValid) :
    t.Sound ↔ s.Sound := by
  rw [State.Sound, State.Sound, treeInv_iff, treeInv_iff, tableInv_iff, tableInv_iff, hasTree_congr h,
    hasTable_congr h hcode, hvalid, hflag]

/-- Without a table the tree alone matters. -/
theorem sound_of_noTable (h : s.treeInv) (hflag : s.status.tableValid = false) : s.Sound :=
  ⟨h, fun htable => absurd htable (ne_true_of_eq_false hflag)⟩

theorem treeInv_of_noTree (h : s.status.treeValid = false) : s.treeInv :=
  fun hvalid => absurd hvalid (ne_true_of_eq_false h)

/-- A rule that writes none of these keeps them. -/
theorem Frame.sound {w : List Area} (h : Frame w s t) (htree : .tree ∉ w) (hvalid : .treeFlag ∉ w) (hcode : .code ∉ w)
    (hflag : .tableFlag ∉ w) : s.Sound → t.Sound :=
  (sound_congr (h.tree htree) (h.code hcode) (h.treeFlag hvalid) (h.tableFlag hflag)).2

/-- The tree that the builder leaves, in its slots (R46, R205). -/
theorem storeTree_hasTree (s : State) : (storeTree s).HasTree := by
  obtain ⟨tree, slots, htree, hperm, hslots⟩ := buildTree_treeAt s.freq s.node
  have hroot : (storeTree s).root = slotOf (2 * (treeSymbols s.freq).length - 2) := by
    simp only [storeTree, buildTree_cands, List.headD_cons]
  have hnnodes : (storeTree s).nnodes = 2 * (treeSymbols s.freq).length - 1 := by
    simp only [storeTree, buildTree_next]
  have hleaves := leafCount_of_symbols_perm hperm
  have hnodes := nodeCount_succ tree
  obtain ⟨htreeOf, hslotsOf⟩ := htree.walk (leafCount_le_walkFuel hperm)
  refine ⟨tree, ?_, ?_, ?_, ?_, ?_⟩
  · rw [State.tree, hroot]
    exact htreeOf
  · rw [hroot]
    refine List.Nodup.of_map Fin.val ?_
    rw [show slotsOf (storeTree s).node walkFuel _ = slots from hslotsOf]
    exact hslots.nodup_iff.2 List.nodup_range
  · rw [storeTree_nleaves, ← treeSymbols_length, hleaves]
  · omega
  · rw [storeTree_nleaves, ← treeSymbols_length]
    omega

end

/-! ### The rules that make a tree or a table -/

section
variable {s : State}

theorem leads_setTableValid {b : Bool} {P E : State → Prop} {Q : Unit → State → Prop} (h : ∀ s, P s → E s)
    (hf : ∀ s, P s → Q () (putTableValid b s)) : Leads P (setTableValid b) Q E := .tick_modState h hf

theorem leads_setTreeValid {b : Bool} {P E : State → Prop} {Q : Unit → State → Prop} (h : ∀ s, P s → E s)
    (hf : ∀ s, P s → Q () (putTreeValid b s)) : Leads P (setTreeValid b) Q E := .tick_modState h hf

/-- A tree is in the node memory and there is no table. -/
def State.TreeOnly (s : State) : Prop := s.status.treeValid = true ∧ s.status.tableValid = false ∧ s.HasTree

theorem State.TreeOnly.sound (h : s.TreeOnly) : s.Sound := sound_of_noTable (fun _ => h.2.2) h.2.1

/-- Neither flag is set. -/
def State.NothingValid (s : State) : Prop := s.status.treeValid = false ∧ s.status.tableValid = false

theorem State.NothingValid.sound (h : s.NothingValid) : s.Sound := sound_of_noTable (treeInv_of_noTree h.1) h.2

/-- A rule that writes neither the tree nor TABLE_VALID keeps a tree without a table. -/
theorem Frame.treeOnly {t : State} {w : List Area} (h : Frame w s t) (htree : .tree ∉ w) (hvalid : .treeFlag ∉ w)
    (hflag : .tableFlag ∉ w) (hs : s.TreeOnly) : t.TreeOnly := by
  obtain ⟨htrue, hnone, hhas⟩ := hs
  exact ⟨(h.treeFlag hvalid).trans htrue, (h.tableFlag hflag).trans hnone,
    (hasTree_congr (h.tree htree)).2 hhas⟩

/-- Building a tree from a state without a table (R200, R260). -/
theorem leads_build {β : Type} {f : Cmd β} {Q : β → State → Prop}
    (hf : Leads State.TreeOnly f Q State.Sound) :
    Leads State.Sound (setTableValid false >>= fun _ => modState storeTree >>= fun _ => setTreeValid true >>= fun _ => f)
      Q State.Sound := by
  refine (leads_setTableValid (Q := fun _ s => s.status.tableValid = false) (fun _ h => h) fun s _ => rfl).bind fun _ =>
    (Leads.modState (Q := fun _ s => s.status.tableValid = false ∧ s.HasTree) fun s h => ?_).bind fun _ =>
    (leads_setTreeValid (Q := fun _ s => s.TreeOnly) (fun s h => ?_) fun s h => ?_).bind fun _ => hf
  · have hkept := (frame_storeTree (w := [.tree]) (by decide) s).tableFlag (by decide)
    exact ⟨hkept.trans h, storeTree_hasTree s⟩
  · exact sound_of_noTable (fun _ => h.2) h.1
  · exact ⟨rfl, h.1, h.2⟩

/-- Where the table is filled to the end, it is the table of the tree (R221). -/
theorem leads_fillCode :
    Leads State.TreeOnly fillCode (fun _ s => s.TreeOnly ∧ s.HasTable) State.TreeOnly := by
  refine (((within_fillCode (w := [.code]) (by decide)).leads
    fun _ _ h => h.treeOnly (by decide) (by decide) (by decide))).and_ok fun r _ r' h hok => ?_
  obtain ⟨-, -, tree, htree, -⟩ := h
  have hwhole := (within_fillCode (w := [.code]) (by decide)).run_whole_of_ok hok
  rcases recordable_or_fault tree.symbols with hall | ⟨pre, sym, post, hsyms, hpre, hsym⟩
  · rw [fillCode_run htree hall.1 fun sym hsym => Nat.lt_succ_of_le (hall.2 sym hsym)] at hwhole
    obtain ⟨-, hr⟩ := EStateM.Result.ok.inj hwhole
    have hst := congrArg Run.st hr
    have hroot := tree_congr (s := r.st) (t := r'.st) (by rw [← hst]) (by rw [← hst])
    exact ⟨tree, hroot.trans htree, hall, by rw [← hst]⟩
  · obtain ⟨code, hfault⟩ := fillCode_fault htree hsyms hpre hsym
    rw [hfault] at hwhole
    cases hwhole

/-- TABLE_VALID may be set over a table of the tree. -/
theorem sound_putTableValid {s : State} (h : s.TreeOnly ∧ s.HasTable) : (putTableValid true s).Sound :=
  ⟨fun _ => h.1.2.2, tableInv_iff.2 fun _ => ⟨h.1.1, h.2⟩⟩

/-- A header that is read to the end leaves its tree, and what stops before leaves no tree (R243). -/
theorem leads_readHeader : Leads (fun _ => True) readHeader (fun _ => State.TreeOnly) State.NothingValid := by
  have hframe : ∀ s t, Frame [.src, .tree] s t → s.NothingValid → t.NothingValid := fun s t h hs =>
    ⟨(h.treeFlag (by decide)).trans hs.1, (h.tableFlag (by decide)).trans hs.2⟩
  have htokens : Within [.src, .tree] readHeaderTokens := within_readHeaderTokens (by decide) (by decide)
  refine (Leads.modState (Q := fun _ => State.NothingValid) fun s _ => ⟨rfl, rfl⟩).bind fun _ =>
    ((htokens.leads hframe).and_ok (Q' := fun _ s => s.HasTree) fun r _ r' _ hok => ?_).unspecifiedOnError
      (fun s h => hframe _ _ (frame_scrambleTree (by decide)) h) |>.bind fun _ =>
    leads_setTreeValid (fun s h => h.1) fun s h => ⟨rfl, h.1.2, h.2⟩
  have hwhole := htokens.run_whole_of_ok hok
  obtain ⟨tree, rest, hu, hnodes⟩ := readHeaderTokens_ok hwhole
  rw [readHeaderTokens_run hu hnodes] at hwhole
  obtain ⟨-, hr⟩ := EStateM.Result.ok.inj hwhole
  have hst := congrArg Run.st hr
  dsimp only at hst
  rw [← hst]
  refine ⟨tree, (rebuilt_walk hnodes r.st.node).1, List.Nodup.of_map Fin.val ?_, rfl, rfl, nodeCount_succ tree⟩
  exact (slotsOf_rebuilt_val hnodes r.st.node).symm ▸ List.nodup_range

/-! ### Every rule -/

/-- What writes neither the tree nor the table nor their flags keeps their rules. -/
theorem leads_of_within {α : Type} {w : List Area} {x : Cmd α} (hx : Within w x)
    (hw : w ⊆ [.src, .snk, .freq, .totals, .wroteFlag]) : Leads State.Sound x (fun _ => State.Sound) State.Sound :=
  (hx.mono hw).leads fun _ _ h => h.sound (by decide) (by decide) (by decide) (by decide)

theorem leads_ruleTbBuild : Leads State.Sound ruleTbBuild (fun _ => State.Sound) State.Sound :=
  leads_build (.modState fun _ h => h.sound)

theorem leads_ruleCtMake : Leads State.Sound ruleCtMake (fun _ => State.Sound) State.Sound := by
  have hfill : Leads (fun s => s.treeInv ∧ s.status.tableValid = false) ctMakeFill
      (fun _ s => s.TreeOnly ∧ s.HasTable) fun s => s.treeInv ∧ s.status.tableValid = false := by
    refine .unspecifiedOnError (.bind_getState fun s hs => ?_) fun s h => h
    split
    case isTrue =>
      refine .raise fun u h => ?_
      obtain rfl : u = s := h
      exact hs
    case isFalse hvalid =>
      have htree : s.TreeOnly := ⟨by simpa using hvalid, hs.2, hs.1 (by simpa using hvalid)⟩
      exact (leads_fillCode.of_stop fun s h => ⟨h.sound.1, h.2.1⟩).of_imp fun u (h : u = s) => h ▸ htree
  refine (Leads.modState (Q := fun _ s => s.treeInv ∧ s.status.tableValid = false) fun s h => ⟨h.1, rfl⟩).bind fun _ =>
    (hfill.of_stop fun s h => sound_of_noTable h.1 h.2).bind fun _ =>
    (Leads.completing fun s h => h.1.sound).bind fun _ => .modState fun s => sound_putTableValid

theorem leads_compressPass1 : Leads State.Sound compressPass1 (fun _ => State.Sound) State.Sound := by
  have hcount : Within [.src, .freq, .totals] countPass := within_countPass (by decide) (by decide) (by decide)
  have hfill : Leads State.TreeOnly fillCode (fun _ s => s.TreeOnly ∧ s.HasTable) State.Sound :=
    leads_fillCode.of_stop fun _ h => h.sound
  have hflag : Leads (fun s => s.TreeOnly ∧ s.HasTable) (setTableValid true) (fun _ => State.Sound) State.Sound :=
    leads_setTableValid (fun _ h => h.1.sound) fun _ => sound_putTableValid
  have hfree : ∀ {f : State → State}, (∀ s, Frame [] s (f s)) → Leads State.Sound (modState f) (fun _ => State.Sound)
      State.Sound := fun hf => leads_of_within (.modState hf) (by decide)
  exact (hfree fun _ => frame_free ..).bind fun _ => (leads_of_within hcount (by decide)).bind fun _ =>
    leads_build (hfill.bind fun _ => hflag.bind fun _ => hfree fun _ => frame_free ..)

theorem leads_ruleCompress (force : Bool) :
    Leads State.Sound (ruleCompress force) (fun _ => State.Sound) State.Sound := by
  refine .bind_getState fun s hs => .of_imp (P := State.Sound) ?_ fun _ h => h ▸ hs
  split
  · exact .raise fun _ h => h
  · refine leads_compressPass1.bind fun _ => .bind_getState fun u hu => .of_imp (P := State.Sound) ?_ fun _ h => h ▸ hu
    split
    · exact leads_of_within within_compressPass2 (by decide)
    · exact .pure fun _ h => h

/-- Every rule keeps the invariants, and where it stops they hold too. -/
theorem leads_ruleOf (i : Instr) : Leads State.Sound (ruleOf i) (fun _ => State.Sound) State.Sound := by
  have hheader : Leads State.Sound readHeader (fun _ => State.TreeOnly) State.Sound :=
    (leads_readHeader.of_imp fun _ _ => trivial).of_stop fun _ h => h.sound
  cases i with
  | tbBuild => exact leads_ruleTbBuild
  | ctMake => exact leads_ruleCtMake
  | hcRead => exact hheader.bind fun _ => .modState fun _ h => h.sound
  | encCompress | encCompressF => exact leads_ruleCompress _
  | decDecompress =>
    have hbody : Leads State.TreeOnly decodeBody (fun _ => State.TreeOnly) State.TreeOnly :=
      (within_decodeBody (w := [.src, .snk]) (by decide) (by decide)).leads fun _ _ h =>
        h.treeOnly (by decide) (by decide) (by decide)
    exact hheader.bind fun _ => (hbody.of_stop fun _ h => h.sound).bind fun _ => .modState fun _ h => h.sound
  | nop | fcClear | fcCount | fcGet | fcAdd | fcSet | ctGet | hcWrite =>
    exact leads_of_within (within_ruleOf _) (by decide)

end

/-! ### Steps -/

/-- Everything that a step can do to a machine whose next event has been taken off the schedule. -/
inductive Move (s : State) : State → Prop
  /-- the bus answers, or the reset line is released, or nothing happens -/
  | quiet (bus : BusResponse) (draws : Nat) (resetLine : Bool) :
    Move s { s with bus := bus, draws := draws, resetLine := resetLine }
  | operands (arg0 arg1 : Word) (bus : BusResponse) : Move s { s with arg0 := arg0, arg1 := arg1, bus := bus }
  | accepted (v : Word) (bus : BusResponse) : Move s { accept v s with bus := bus }
  | advanced (n : Nat) : Move s (advance n s)
  | command {i : Instr} {t : State} (h : exec i s = .next t) : Move s t
  | illegal : Move s (rejectIllegal s)
  | reset : Move s (assertReset s)
  | collaborated (before after : Bits) (rewindable : Bool) (snk : Bits) :
    Move s { s with src := { bits := before ++ after, pos := before.length, rewindable, start := before.length }, snk }

section
variable {s t : State}

theorem move_of_coreMove (h : coreMove s = .next t) : Move s t := by
  rcases coreMove_cases s with ⟨-, h'⟩ | ⟨k, i, -, -, h'⟩ | ⟨k, e, -, -, h'⟩ <;> rw [h'] at h
  · cases Host.Outcome.next.inj h
    exact .quiet s.bus s.draws s.resetLine
  · exact .command h
  · cases Host.Outcome.next.inj h
    exact .illegal

theorem move_readReg (r : Reg) (s : State) : Move s (readReg r s) := by
  unfold readReg
  split <;> exact .quiet _ _ s.resetLine

theorem move_writeReg (r : Reg) (v : Word) (s : State) : Move s (writeReg r v s) := by
  unfold writeReg writeEffect
  split
  · exact .quiet .written s.draws s.resetLine
  · cases r with
    | cmd => exact .accepted v .written
    | arg0 => exact .operands v s.arg1 .written
    | arg1 => exact .operands s.arg0 v .written
    | _ => exact .quiet .written s.draws s.resetLine

/-- A host's access is a move where the read or the write of a register that it makes is one. -/
theorem move_of_hostAccess {off size : Nat} {take : Reg → State → Host.Outcome State Fault Refusal}
    (htake : ∀ r, take r s = .next t → Move s t) (h : hostAccess off size take s = .next t) : Move s t := by
  rcases hostAccess_cases off size take s with ⟨-, h'⟩ | ⟨r, -, -, h'⟩ | ⟨-, -, h'⟩ <;> rw [h'] at h
  · cases Host.Outcome.next.inj h
    exact .quiet .none s.draws s.resetLine
  · exact htake r h
  · unfold badAccess at h
    split at h
    · cases Host.Outcome.next.inj h
      exact .quiet _ _ s.resetLine
    · cases h

theorem move_of_perform {e : Event} (h : perform e s = .next t) : Move s t := by
  cases e with
  | hostRead off size =>
    refine move_of_hostAccess (take := fun r s => .next (readReg r s)) (fun r hr => ?_) h
    cases Host.Outcome.next.inj hr
    exact move_readReg r s
  | hostWrite off size v =>
    refine move_of_hostAccess (take := fun r => hostWriteReg r v) (fun r hr => ?_) h
    rcases hostWriteReg_cases r v s with ⟨-, h'⟩ | ⟨-, h'⟩ <;> rw [h'] at hr
    · cases Host.Outcome.next.inj hr
      exact move_writeReg r v s
    · cases hr
  | coreAdvance n =>
    cases Host.Outcome.next.inj h
    exact .advanced n
  | coreComplete => exact move_of_coreMove h
  | resetAssert =>
    cases Host.Outcome.next.inj h
    exact .reset
  | resetRelease =>
    cases Host.Outcome.next.inj h
    exact .quiet s.bus s.draws false
  | collaborate before after rewindable snk =>
    simp only [perform, collaborate] at h
    split at h
    · cases Host.Outcome.next.inj h
      exact .collaborated before after rewindable snk
    · cases h

/-- Each step is a move. -/
theorem move_of_step (h : step s = .next t) : ∃ agenda, Move { s with agenda := agenda } t := by
  cases hagenda : s.agenda with
  | nil => exact ⟨s.agenda, move_of_coreMove (step_of_no_event hagenda ▸ h)⟩
  | cons e rest => exact ⟨rest, move_of_perform (step_of_event hagenda ▸ h)⟩

end

/-! ### Every step -/

/-- All the invariants of a state between two steps (R37, R46, R48, R49). -/
def State.Inv (s : State) : Prop := s.statusInv ∧ s.Sound

section
variable {s t : State}

/-- BUSY, DONE, ERR and ERRCODE are none of a rule's. -/
theorem Frame.control {w : List Area} (h : Frame w s t) :
    (t.status.busy = s.status.busy ∧ t.status.done = s.status.done ∧ t.status.err = s.status.err ∧
      t.status.errcode = s.status.errcode) ∧ t.phase = s.phase := by
  have hfixed := h.fixed
  simp only [State.fixedPart, Prod.mk.injEq] at hfixed
  simp only [hfixed, and_self]

theorem consistent_congr {f g : Status} (hbusy : g.busy = f.busy) (hdone : g.done = f.done) (herr : g.err = f.err)
    (hcode : g.errcode = f.errcode) : g.consistent ↔ f.consistent := by
  rw [Status.consistent, Status.consistent, hbusy, hdone, herr, hcode]

/-- Completion without an error makes the flags those of an idle core (R163). -/
theorem statusInv_done (h : s.status.consistent) : (done s).statusInv := by
  obtain ⟨-, hcode, -⟩ := h
  refine ⟨⟨?_, hcode, fun _ => rfl⟩, ?_, rfl⟩ <;> simp [doneFlags]

theorem errCode_ne_zero (e : ErrKind) : errCode e ≠ 0#4 := by cases e <;> decide

/-- An error makes the flags those of an idle core with an error (R330). -/
theorem statusInv_endInError (e : ErrKind) (info : Word) (s : State) : (endInError e info s).statusInv := by
  refine ⟨⟨?_, ?_, fun _ => rfl⟩, ?_, rfl⟩ <;> simp [endInError, raiseFlags, errCode_ne_zero e]

/-- A command keeps the invariants. -/
theorem inv_exec {i : Instr} (h : s.Inv) (hexec : exec i s = .next t) : t.Inv := by
  obtain ⟨hstatus, hsound⟩ := h
  have hrule := leads_ruleOf i ⟨s, none⟩ hsound
  rcases exec_cases i s with ⟨u, hframe, hrun, h⟩ | ⟨e, info, u, -, hrun, h⟩ | ⟨-, h⟩ <;>
    cases Host.Outcome.next.inj (hexec.symm.trans h)
  · rw [hrun] at hrule
    obtain ⟨⟨hbusy, hdone, herr, hcode⟩, -⟩ := hframe.control
    exact ⟨statusInv_done ((consistent_congr hbusy hdone herr hcode).2 hstatus.1), hrule⟩
  · rw [hrun] at hrule
    exact ⟨statusInv_endInError e info u, hrule⟩
  · exact ⟨hstatus, hsound⟩

/-- A new command makes the flags those of a busy core, whatever they were (R160). -/
theorem statusInv_accept (v : Word) (s : State) : (accept v s).statusInv := by
  refine ⟨⟨fun _ => ⟨rfl, rfl, rfl⟩, ?_, ?_⟩, ?_, rfl⟩ <;> simp [acceptFlags]

/-- Reset leaves an idle core with no tree and no table (R360). -/
theorem inv_assertReset (s : State) : (assertReset s).Inv := by
  have hnone : (assertReset s).NothingValid := ⟨rfl, rfl⟩
  refine ⟨⟨⟨?_, ?_, ?_⟩, ?_, rfl⟩, hnone.sound⟩ <;> simp [assertReset, Status.clear]

theorem inv_advance (n : Nat) (h : s.Inv) : (advance n s).Inv := by
  unfold advance
  split
  · exact h
  · rename_i k hphase
    obtain ⟨⟨hconsistent, hbusy, hwork⟩, hsound⟩ := h
    rw [hphase] at hbusy
    exact ⟨⟨hconsistent, by simpa using hbusy, hwork⟩, hsound⟩

/-- Every move keeps the invariants. -/
theorem Move.inv (hmove : Move s t) (h : s.Inv) : t.Inv := by
  cases hmove with
  | quiet | operands | collaborated => exact h
  | accepted v => exact ⟨statusInv_accept v s, h.2⟩
  | advanced n => exact inv_advance n h
  | command hexec => exact inv_exec h hexec
  | illegal => exact ⟨statusInv_endInError _ _ _, h.2⟩
  | reset => exact inv_assertReset s

/-- What a host sees: the state itself, or the accepted machine after some of the command's actions. -/
theorem live_cases (s : State) : live s = s ∨ ∃ i k, live s = (endRun ((ruleOf i).run ⟨s, some k⟩)).st := by
  unfold live
  split
  · exact .inl rfl
  · split
    · exact .inr ⟨_, _, afterActions_eq ..⟩
    · exact .inl rfl

/-- A running command shows the invariants to a host at every point. -/
theorem inv_live (h : s.Inv) :
    (live s).status.consistent ∧ ((live s).status.busy = true ↔ s.phase ≠ .idle) ∧ (live s).Sound := by
  obtain ⟨⟨hconsistent, hbusy, -⟩, hsound⟩ := h
  rcases live_cases s with hlive | ⟨i, k, hlive⟩ <;> rw [hlive]
  · exact ⟨hconsistent, hbusy, hsound⟩
  · obtain ⟨⟨hbusy', hdone, herr, hcode⟩, -⟩ := ((within_ruleOf i).frame ⟨s, some k⟩).control
    refine ⟨(consistent_congr hbusy' hdone herr hcode).2 hconsistent, hbusy' ▸ hbusy, ?_⟩
    have hrule := leads_ruleOf i ⟨s, some k⟩ hsound
    generalize (ruleOf i).run ⟨s, some k⟩ = result at hrule
    cases result <;> exact hrule

end

/-- Settles O58: every event keeps the invariants, and so does every rule, at each point where it may stop. -/
theorem stepKeepsTheInvariants : Obligations.StepKeepsTheInvariants := by
  intro s t h hstep
  obtain ⟨agenda, hmove⟩ := move_of_step hstep
  have ht : t.Inv := hmove.inv (s := { s with agenda := agenda }) h
  exact ⟨ht, inv_live ht⟩

end Sys2Proof.Machine
end

section
/-! Counting any input (R181, R185, R186): the symbols in range and those out of range, to the end of SRC or to the first
symbol that a counter has no room for. -/

namespace Sys2Proof.Machine

/-! ### The symbols on SRC -/

/-- The whole fields at the front of a bit string spell it, up to a last part that is none (R80). -/
theorem fieldsOf_spec {w fuel : Nat} {b : Bits} (hw : 0 < w) (hfuel : b.length ≤ fuel) :
    ∃ rest, b = (fieldsOf w fuel b).flatMap (natToBits w) ++ rest ∧ rest.length < w ∧
      ∀ v ∈ fieldsOf w fuel b, v < 2 ^ w := by
  induction fuel generalizing b with
  | zero => exact ⟨b, rfl, by omega, by simp [fieldsOf]⟩
  | succ fuel ih =>
    rw [fieldsOf]
    split
    case isTrue h => exact ⟨b, rfl, h, by simp⟩
    case isFalse h =>
      have hlen : (b.take w).length = w := List.length_take_of_le (by omega)
      have hfield := natToBits_bitsToNat (b.take w)
      have hlt := bitsToNat_lt (b.take w)
      rw [hlen] at hfield hlt
      obtain ⟨rest, hrest, hshort, hvs⟩ := ih (b := b.drop w) (by rw [List.length_drop]; omega)
      refine ⟨rest, ?_, hshort, List.forall_mem_cons.2 ⟨hlt, hvs⟩⟩
      rw [List.flatMap_cons, hfield, List.append_assoc, ← hrest, List.take_append_drop]

theorem symInW_pos (b : BuildParams) : 0 < b.symInW := Nat.succ_pos _

/-- SRC's unread bits are the symbols that the counter reads, and a part of a symbol after them (R80, R186). -/
theorem unread_eq_inputSymbols (s : State) :
    ∃ rest, s.unread = s.inputSymbols.flatMap (natToBits s.build.symInW) ++ rest ∧ rest.length < s.build.symInW ∧
      ∀ v ∈ s.inputSymbols, v < 2 ^ s.build.symInW :=
  fieldsOf_spec (symInW_pos s.build) le_rfl

/-! ### One symbol -/

theorem inRange_concat (vs : List Nat) (v : Nat) : inRange (vs ++ [v]) = inRange vs ++ inRange [v] :=
  List.filter_append ..

theorem outOfRange_concat (vs : List Nat) (v : Nat) : outOfRange (vs ++ [v]) = outOfRange vs ++ outOfRange [v] :=
  List.filter_append ..

theorem countsOf_concat_of_ge (vs : List Nat) {v : Nat} (hv : 256 ≤ v) : countsOf (vs ++ [v]) = countsOf vs := by
  refine Vector.ext fun i hi => ?_
  have hne : v ≠ i := by omega
  simp [countsOf, List.count_singleton, hne]

/-- Both counters hold the numbers of symbols they stand for (R39, R40). -/
def Countable (vs : List Nat) : Prop := (inRange vs).length < 2 ^ 32 ∧ (outOfRange vs).length < 2 ^ 32

/-- The counter that v belongs to is full after the symbols vs (R186). -/
def FullFor (vs : List Nat) (v : Nat) : Prop :=
  v < 256 ∧ (inRange vs).length = 2 ^ 32 - 1 ∨ 256 ≤ v ∧ (outOfRange vs).length = 2 ^ 32 - 1

theorem countable_nil : Countable [] := by simp [Countable, inRange, outOfRange]

/-- A symbol that neither counter is full for is counted without overflow. -/
theorem countable_concat {vs : List Nat} {v : Nat} :
    Countable (vs ++ [v]) ↔ Countable vs ∧ ¬ FullFor vs v := by
  rw [Countable, Countable, FullFor, inRange_concat, outOfRange_concat, List.length_append, List.length_append]
  rcases Nat.lt_or_ge v 256 with hv | hv
  · simp [inRange, outOfRange, hv]
    omega
  · simp [inRange, outOfRange, hv]
    omega

theorem countable_of_append {vs ws : List Nat} (h : Countable (vs ++ ws)) : Countable vs := by
  simp only [Countable, inRange, outOfRange, List.filter_append, List.length_append] at h ⊢
  omega

/-- Any input is counted to its end, or to a first symbol that a counter is full for. -/
theorem countable_or_full (vs : List Nat) :
    Countable vs ∨ ∃ pre v post, vs = pre ++ v :: post ∧ Countable pre ∧ FullFor pre v := by
  induction vs using List.reverseRecOn with
  | nil => exact .inl countable_nil
  | append_singleton vs v ih =>
    rcases ih with hvs | ⟨pre, x, post, rfl, hpre, hx⟩
    · by_cases hv : FullFor vs v
      · exact .inr ⟨vs, v, [], rfl, hvs, hv⟩
      · exact .inl (countable_concat.2 ⟨hvs, hv⟩)
    · exact .inr ⟨pre, x, post ++ [v], by simp, hpre, hx⟩

theorem ofNat_eq_countMax {n : Nat} (h : n < 2 ^ 32) : BitVec.ofNat 32 n = countMax ↔ n = 2 ^ 32 - 1 := by
  rw [eq_countMax_iff, BitVec.toNat_ofNat, Nat.mod_eq_of_lt h]

section
variable (s : State) {vs : List Nat} {v : Nat} (p : Nat)

/-- One symbol more is counted, in range or out of range (R185, R186). -/
theorem countSymbol_counted (h : Countable (vs ++ [v])) :
    (countSymbol v).run ⟨s.counted vs p, none⟩ = .ok () ⟨s.counted (vs ++ [v]) p, none⟩ := by
  obtain ⟨⟨hin, hout⟩, hroom⟩ := countable_concat.1 h
  rcases Nat.lt_or_ge v 256 with hv | hv
  · have ht : (s.counted vs p).total ≠ countMax := fun heq => hroom (.inl ⟨hv, (ofNat_eq_countMax hin).1 heq⟩)
    rw [countSymbol_inRange hv ht]
    simp [bumpCount, setFreq, State.counted, inRange, outOfRange, hv, ← countsOf_concat vs ⟨v, hv⟩, BitVec.ofNat_add]
  · have ht : (s.counted vs p).skipped ≠ countMax := fun heq => hroom (.inr ⟨hv, (ofNat_eq_countMax hout).1 heq⟩)
    rw [countSymbol_outOfRange hv ht]
    simp [State.counted, inRange, outOfRange, hv, countsOf_concat_of_ge vs hv, BitVec.ofNat_add]

/-- A symbol that its counter is full for is an overflow (R181, R186). -/
theorem countSymbol_full (h : Countable vs) (hfull : FullFor vs v) :
    (countSymbol v).run ⟨s.counted vs p, none⟩ = .error (.raised .countOverflow 0) ⟨s.counted vs p, none⟩ :=
  countSymbol_overflow (hfull.imp (And.imp_right (ofNat_eq_countMax h.1).2) (And.imp_right (ofNat_eq_countMax h.2).2))

end

/-! ### The pass -/

/-- A symbol of any value that stands next on SRC is the one that is counted (R186). -/
theorem countLoop_next {s : State} {v : Nat} {rest : Bits} (hv : v < 2 ^ s.build.symInW)
    (hu : s.unread = natToBits s.build.symInW v ++ rest) (fuel : Nat) :
    (countLoop (fuel + 1)).run ⟨s, none⟩ =
      (countSymbol v >>= fun _ => countLoop fuel).run ⟨setSrcPos (s.src.pos + s.build.symInW) s, none⟩ := by
  rw [countLoop, bind_of_ok (getState_run _), bind_of_ok (srcRead_field hu), Nat.mod_eq_of_lt hv]

/-- The loop counts the symbols ws after the symbols vs, as long as both counters have room (R186). -/
theorem countLoop_symbols (s : State) {vs ws : List Nat} {p : Nat} {rest : Bits} (hroom : Countable (vs ++ ws))
    (hws : ∀ v ∈ ws, v < 2 ^ s.build.symInW)
    (hu : s.src.bits.drop p = ws.flatMap (natToBits s.build.symInW) ++ rest) (fuel : Nat) :
    (countLoop (ws.length + fuel)).run ⟨s.counted vs p, none⟩ =
      (countLoop fuel).run ⟨s.counted (vs ++ ws) (p + s.build.symInW * ws.length), none⟩ := by
  induction ws generalizing vs p with
  | nil => simp
  | cons v ws ih =>
    obtain ⟨hv, hws⟩ := List.forall_mem_cons.1 hws
    rw [List.flatMap_cons, List.append_assoc] at hu
    have hroom' : Countable ((vs ++ [v]) ++ ws) := by simpa using hroom
    have hnext : s.src.bits.drop (p + s.build.symInW) = ws.flatMap (natToBits s.build.symInW) ++ rest :=
      unread_setSrcPos (s := s.counted vs p) hu (natToBits_length ..)
    have hcount := countSymbol_counted s (p + s.build.symInW) (countable_of_append hroom')
    have hfuel : (v :: ws).length + fuel = ws.length + fuel + 1 := by rw [List.length_cons]; omega
    rw [hfuel, countLoop_next (s := s.counted vs p) hv hu]
    refine (bind_of_ok hcount).trans ((ih hroom' hws hnext).trans ?_)
    rw [List.append_assoc, List.singleton_append, List.length_cons, Nat.mul_succ, Nat.add_right_comm, ← Nat.add_assoc]

section
variable (s : State)

/-- `count_pass()` counts the symbols ws that SRC begins with, as long as both counters have room (R186). -/
theorem countPass_symbols {ws : List Nat} {rest : Bits} (hroom : Countable ws) (hws : ∀ v ∈ ws, v < 2 ^ s.build.symInW)
    (hu : s.unread = ws.flatMap (natToBits s.build.symInW) ++ rest) :
    ∃ fuel, countPass.run ⟨s, none⟩ =
        (countLoop (fuel + 1)).run ⟨s.counted ws (s.src.pos + s.build.symInW * ws.length), none⟩ ∧
      (s.counted ws (s.src.pos + s.build.symInW * ws.length)).unread = rest := by
  obtain ⟨fuel, hfuel⟩ := Nat.exists_eq_add_of_lt (length_lt_fuel hu)
  have hloop := countLoop_symbols s (vs := []) hroom hws hu (fuel + 1)
  have hnext := unread_setSrcPos hu (flatMap_natToBits_length ..)
  rw [Nat.mul_comm] at hnext
  refine ⟨fuel, ?_, hnext⟩
  rw [countPass, bind_of_ok (modState_run ..), bind_of_ok (getState_run _)]
  simp only [clearCounts_eq_counted]
  change (countLoop (srcLeft s + 1)).run _ = _
  rw [hfuel]
  exact hloop

/-- `count_pass()` on an input that the counters have room for (R186). -/
theorem countPass_counted (h : Countable s.inputSymbols) :
    countPass.run ⟨s, none⟩ = .ok () ⟨s.counted s.inputSymbols s.src.bits.length, none⟩ := by
  obtain ⟨rest, hu, hrest, hvs⟩ := unread_eq_inputSymbols s
  obtain ⟨fuel, hrun, hnext⟩ := countPass_symbols s h hvs hu
  exact hrun.trans (countLoop_end ((congrArg List.length hnext).trans_lt hrest) fuel)

/-- `count_pass()` on an input with a symbol that a counter has no room for (R181, R186). -/
theorem countPass_full {pre post : List Nat} {v : Nat} (hinput : s.inputSymbols = pre ++ v :: post)
    (hpre : Countable pre) (hv : FullFor pre v) :
    countPass.run ⟨s, none⟩ = .error (.raised .countOverflow 0)
      ⟨s.counted pre (s.src.pos + s.build.symInW * (pre.length + 1)), none⟩ := by
  obtain ⟨rest, hu, -, hvs⟩ := unread_eq_inputSymbols s
  rw [hinput] at hu hvs
  obtain ⟨hvspre, hvspost⟩ := List.forall_mem_append.1 hvs
  rw [List.flatMap_append, List.append_assoc] at hu
  obtain ⟨fuel, hrun, hnext⟩ := countPass_symbols s hpre hvspre hu
  rw [List.flatMap_cons, List.append_assoc] at hnext
  have hfull := countSymbol_full s (s.src.pos + s.build.symInW * (pre.length + 1)) hpre hv
  rw [Nat.mul_succ, ← Nat.add_assoc] at hfull ⊢
  exact hrun.trans ((countLoop_next (s := s.counted pre (s.src.pos + s.build.symInW * pre.length))
    (hvspost v List.mem_cons_self) hnext fuel).trans (bind_of_error hfull))

end

/-! ### The obligations -/

/-- Settles O24: the pass counts the whole input, and then the two counters are the results. -/
theorem fcCountCountsTheInput : Obligations.FcCountCountsTheInput := by
  intro s hin hout
  exact exec_of_ok (i := .fcCount) ((bind_of_ok (countPass_counted s ⟨hin, hout⟩)).trans (modState_run ..))

/-- An SRC that can rewind is compressed in two passes, the second one where the size policy says so (R260, R263). -/
theorem ruleCompress_run {s : State} (h : s.src.rewindable = true) (force : Bool) :
    (ruleCompress force).run ⟨s, none⟩ = (compressPass1 >>= fun _ => getState >>= fun u =>
      if sizePolicy force u then compressPass2 else pure ()).run ⟨s, none⟩ := by
  rw [ruleCompress, bind_of_ok (getState_run _), if_neg (ne_false_of_eq_true h)]

/-- Both commands that compress do so by one rule (R260). -/
theorem ruleOf_compress {i : Instr} (hi : i = .encCompress ∨ i = .encCompressF) : ruleOf i = ruleCompress (forceOf i) := by
  rcases hi with rfl | rfl <;> rfl

/-- Settles O25: in all three commands the counting pass meets the symbol, and no write but its own was made before. -/
theorem countingStopsAtOverflow : Obligations.CountingStopsAtOverflow := by
  intro s i pre post v hi hinput hin hout hfull
  rcases hi with rfl | ⟨hi, hrewind⟩
  · exact exec_raised (i := .fcCount) (bind_of_error (countPass_full s hinput ⟨hin, hout⟩ hfull))
  · have hcount := countPass_full (setPass 1 s) hinput ⟨hin, hout⟩ hfull
    have hrun := (ruleCompress_run hrewind (forceOf i)).trans
      (bind_of_error ((bind_of_ok (modState_run ..)).trans (bind_of_error hcount)))
    rw [← ruleOf_compress hi] at hrun
    exact exec_raised hrun

end Sys2Proof.Machine
end

section
/-! ENC_COMPRESS on any input that the counters have room for (R260 to R264): the projected size is the size of the
archive, and pass 2 writes it up to the first value that has no code. -/

namespace Sys2Proof.Machine

/-! ### The projected size -/

/-- A weight for each symbol, summed by counts, is its sum over the values in range (R261). -/
theorem sum_count_mul (f : Nat → Nat) (vs : List Nat) :
    (symbols.map fun i => vs.count i.val * f i.val).sum = ((inRange vs).map f).sum := by
  rw [symbols, ← Fin.sum_univ_def]
  induction vs with
  | nil => simp [inRange]
  | cons v vs ih =>
    have hone : ∑ i : Fin 256, (if v = i.val then f i.val else 0) = ((inRange [v]).map f).sum := by
      rcases Nat.lt_or_ge v 256 with hv | hv
      · have heq : ∀ i : Fin 256, (v = i.val) = ((⟨v, hv⟩ : Fin 256) = i) := fun i => by rw [Fin.ext_iff]
        simp [heq, inRange, hv]
      · have hne : ∀ i : Fin 256, v ≠ i.val := fun i => by omega
        simp [hne, inRange, hv]
    have hcons : inRange (v :: vs) = inRange [v] ++ inRange vs := List.filter_append [v] vs
    rw [hcons, List.map_append, List.sum_append, ← hone, ← ih, ← Finset.sum_add_distrib]
    refine Finset.sum_congr rfl fun i _ => ?_
    rw [List.count_cons, Nat.add_mul, Nat.add_comm]
    by_cases h : v = i.val <;> simp [h]

theorem count_le_inRange {vs : List Nat} {v : Nat} (hv : v < 256) : vs.count v ≤ (inRange vs).length := by
  rw [inRange, ← List.count_filter (p := (· < 256)) (by simpa using hv)]
  exact List.count_le_length

/-- FREQ holds the counts while TOTAL has room (R186). -/
theorem countsOf_toNat {vs : List Nat} (h : Countable vs) (i : Fin 256) : (countsOf vs)[i.val].toNat = vs.count i.val := by
  have hle := count_le_inRange (vs := vs) i.isLt
  rw [countsOf, Vector.getElem_ofFn, BitVec.toNat_ofNat, Nat.mod_eq_of_lt (hle.trans_lt h.1)]

/-- LEN of an entry is the length of its symbol's code (R47). -/
theorem table_len {tree : CodeTree} (hlen : ∀ p ∈ tree.codes, p.2.length ≤ 256) (a : Fin 257) :
    tree.table[a.val].len.toNat = ((tree.codeOf (BitVec.ofNat 9 a.val)).getD []).length := by
  rw [table_getElem]
  cases hcode : tree.codeOf (BitVec.ofNat 9 a.val) with
  | none => rfl
  | some path =>
    have hle := hlen _ (mem_codes_of_codeOf hcode)
    exact Nat.mod_eq_of_lt (by simp only at hle; omega)

theorem encodeAll_length (tree : CodeTree) (vs : List Nat) :
    (tree.encodeAll vs).length = (vs.map fun v => ((tree.codeOf (BitVec.ofNat 9 v)).getD []).length).sum := by
  rw [CodeTree.encodeAll, List.length_flatMap]

/-- The projected size is the size of the archive (R261). -/
theorem projectedBits_eq {s : State} {tree : CodeTree} {vs : List Nat} (htree : s.tree = some tree)
    (hleaves : s.nleaves = tree.leafCount) (hfreq : s.freq = countsOf vs) (hcode : s.code = tree.table)
    (h : Countable vs) : projectedBits s = tree.archiveBits vs := by
  have hlen := code_length_le_of_tree htree
  have hbody : (symbols.map fun i => s.freq[i.val].toNat * s.code[i.val].len.toNat).sum =
      (tree.encodeAll (inRange vs)).length := by
    rw [encodeAll_length, ← sum_count_mul]
    refine congrArg List.sum (List.map_congr_left fun i _ => ?_)
    simp only [hfreq, hcode]
    rw [countsOf_toNat h i]
    exact congrArg (vs.count i.val * ·) (table_len hlen (i.castLE (by decide)))
  have hsentinel : s.code[256].len.toNat = ((tree.codeOf 256).getD []).length := by
    simp only [hcode]
    exact table_len hlen 256
  rw [projectedBits, headerBits, bodyBits, hbody, hsentinel, hleaves, CodeTree.archiveBits]
  omega

/-! ### Pass 1 -/

/-- The machine after pass 1, its working state aside (R260, D26). -/
theorem setSizeResult_coded {s : State} {tree : CodeTree} {vs : List Nat} {p n : Nat} (hp : p = s.src.bits.length)
    (hn : n = tree.archiveBits vs) :
    ∃ work, setSizeResult n (coded tree ((setPass 1 s).counted vs p)) = { s.afterPass1 vs tree with work := work } := by
  subst hp hn
  exact ⟨(setPass 1 s).work, by rw [coded]; rfl⟩

/-- Pass 1 of an input that the counters have room for: nothing after the count can fail (R260). -/
theorem compressPass1_counted {s : State} (h : Countable s.inputSymbols) :
    ∃ tree work, (storeTree (s.counted s.inputSymbols s.src.bits.length)).tree = some tree ∧
      tree.symbols.Perm (treeSymbols (countsOf s.inputSymbols)) ∧
      compressPass1.run ⟨s, none⟩ = .ok () ⟨{ s.afterPass1 s.inputSymbols tree with work := work }, none⟩ := by
  have hcount := countPass_counted (setPass 1 s) h
  obtain ⟨tree, htree, hperm⟩ := storeTree_tree ((setPass 1 s).counted s.inputSymbols s.src.bits.length)
  have hfill := fillCode_run ((flagged_tree _).trans htree) (hperm.nodup_iff.2 (treeSymbols_nodup _)) fun sym hsym =>
    treeSymbols_lt (hperm.subset hsym)
  have hcoded := (coded_tree tree _).trans htree
  have hsize : projectedBits (coded tree ((setPass 1 s).counted s.inputSymbols s.src.bits.length)) =
      tree.archiveBits s.inputSymbols := by
    refine projectedBits_eq hcoded ?_ ?_ ?_ h
    · have hnleaves := storeTree_nleaves ((setPass 1 s).counted s.inputSymbols s.src.bits.length)
      rw [coded, hnleaves, ← treeSymbols_length]
      exact (leafCount_of_symbols_perm hperm).symm
    · rw [coded]; rfl
    · rw [coded]
  obtain ⟨work, hwork⟩ := setSizeResult_coded (s := s) rfl hsize
  refine ⟨tree, work, (tree_congr ?_ ?_).trans htree, hperm, ?_⟩
  · rw [storeTree, storeTree]; rfl
  · rw [storeTree, storeTree]; rfl
  · rw [← hwork]
    refine (bind_of_ok (modState_run ..)).trans <| (bind_of_ok hcount).trans <|
      (bind_of_ok (setTableValid_run ..)).trans <| (bind_of_ok (modState_run ..)).trans <|
      (bind_of_ok (setTreeValid_run ..)).trans <| (bind_of_ok hfill).trans <|
      (bind_of_ok (setTableValid_run ..)).trans ?_
    rw [modState_run, coded_eq]

/-! ### The size policy -/

/-- The size policy asks for the archive's size and 8 bits for each symbol in range (R263). -/
theorem sizePolicy_afterPass1 {s : State} {tree : CodeTree} (h : Countable s.inputSymbols)
    (htree : (storeTree (s.counted s.inputSymbols s.src.bits.length)).tree = some tree)
    (hperm : tree.symbols.Perm (treeSymbols (countsOf s.inputSymbols))) (force : Bool) (work : Work) :
    sizePolicy force { s.afterPass1 s.inputSymbols tree with work := work } = true ↔
      force = true ∨ tree.archiveBits s.inputSymbols < 8 * (inRange s.inputSymbols).length := by
  have hprojected : projectedBits { s.afterPass1 s.inputSymbols tree with work := work } =
      tree.archiveBits s.inputSymbols := by
    refine projectedBits_eq ((tree_congr ?_ ?_).trans htree) ?_ ?_ ?_ h
    · rw [State.afterPass1]
    · rw [State.afterPass1]
    · have hnleaves := storeTree_nleaves (s.counted s.inputSymbols s.src.bits.length)
      rw [State.afterPass1, hnleaves, ← treeSymbols_length]
      exact (leafCount_of_symbols_perm hperm).symm
    · rw [State.afterPass1]; rfl
    · rw [State.afterPass1]
  have htotal : uncompressedBits { s.afterPass1 s.inputSymbols tree with work := work } =
      8 * (inRange s.inputSymbols).length := by
    have htotal : ({ s.afterPass1 s.inputSymbols tree with work := work } : State).total =
        BitVec.ofNat 32 (inRange s.inputSymbols).length := by rw [State.afterPass1]; rfl
    rw [uncompressedBits, htotal, BitVec.toNat_ofNat, Nat.mod_eq_of_lt h.1, Nat.mul_comm]
  rw [sizePolicy, hprojected, htotal, Bool.or_eq_true, decide_eq_true_eq]

/-- An input that the counters have room for is counted, its tree and table are made, and pass 2 follows where the size
policy says so (R260, R263). -/
theorem ruleCompress_counted {s : State} (hrewind : s.src.rewindable = true) (h : Countable s.inputSymbols) :
    ∃ tree work, (storeTree (s.counted s.inputSymbols s.src.bits.length)).tree = some tree ∧
      tree.symbols.Perm (treeSymbols (countsOf s.inputSymbols)) ∧
      ∀ force, (ruleCompress force).run ⟨s, none⟩ =
        if force = true ∨ tree.archiveBits s.inputSymbols < 8 * (inRange s.inputSymbols).length then
          compressPass2.run ⟨{ s.afterPass1 s.inputSymbols tree with work := work }, none⟩
        else .ok () ⟨{ s.afterPass1 s.inputSymbols tree with work := work }, none⟩ := by
  obtain ⟨tree, work, htree, hperm, hpass1⟩ := compressPass1_counted h
  refine ⟨tree, work, htree, hperm, fun force => ?_⟩
  rw [ruleCompress_run hrewind, bind_of_ok hpass1, bind_of_ok (getState_run _)]
  simp only [sizePolicy_afterPass1 h htree hperm]
  split <;> rfl

/-! ### Pass 2 -/

/-- A counted symbol in range has a leaf, whatever else was counted (R201, R260). -/
theorem mem_symbols_of_countable {tree : CodeTree} {vs : List Nat}
    (hperm : tree.symbols.Perm (treeSymbols (countsOf vs))) (h : Countable vs) {v : Nat} (hv : v < 256) (hmem : v ∈ vs) :
    BitVec.ofNat 9 v ∈ tree.symbols := by
  rw [hperm.mem_iff, treeSymbols_eq]
  refine List.mem_append_left _ (List.mem_map.2 ⟨⟨v, hv⟩, List.mem_filter.2 ⟨List.mem_finRange _, ?_⟩, rfl⟩)
  have hcount := countsOf_toNat h ⟨v, hv⟩
  have hne : (countsOf vs)[v] ≠ 0 := fun hzero => by
    have hpos := List.count_pos_iff.2 hmem
    simp only [hzero] at hcount
    exact hpos.ne hcount
  simpa using hne

section
variable {tree : CodeTree} (hlen : ∀ p ∈ tree.codes, p.2.length ≤ 256)
include hlen

/-- The loop of pass 2 sends the codes of the symbols vs that SRC begins with (R260). -/
theorem encodeLoop_symbols {s : State} {vs : List Nat} {rest : Bits} (hcode : s.code = tree.table)
    (hvs : ∀ v ∈ vs, v < 256 ∧ BitVec.ofNat 9 v ∈ tree.symbols)
    (hu : s.unread = vs.flatMap (natToBits s.build.symInW) ++ rest) (fuel : Nat) :
    (encodeLoop (vs.length + fuel)).run ⟨s, none⟩ = (encodeLoop fuel).run
      ⟨setSrcPos (s.src.pos + s.build.symInW * vs.length) (appendSnk (tree.encodeAll vs) s), none⟩ := by
  induction vs generalizing s with
  | nil => simp [CodeTree.encodeAll, setSrcPos]
  | cons v vs ih =>
    obtain ⟨⟨hv, hmem⟩, hvs⟩ := List.forall_mem_cons.1 hvs
    rw [List.flatMap_cons, List.append_assoc] at hu
    have hfuel : (v :: vs).length + fuel = vs.length + fuel + 1 := by rw [List.length_cons]; omega
    rw [hfuel, encodeLoop, bind_of_ok (getState_run _), bind_of_ok (srcRead_field hu),
      Nat.mod_eq_of_lt (lt_two_pow_symInW s hv)]
    refine (bind_of_ok (encodeSymbol_run hlen (s := setSrcPos (s.src.pos + s.build.symInW) s) hcode hv hmem)).trans ?_
    refine (ih (s := appendSnk _ (setSrcPos (s.src.pos + s.build.symInW) s)) hcode hvs
      (unread_setSrcPos hu (natToBits_length ..))).trans ?_
    simp [CodeTree.encodeAll, setSrcPos, appendSnk, Nat.mul_succ, Nat.add_assoc, Nat.add_comm]

end

/-- A value out of range has no code (R260). -/
theorem encodeSymbol_outOfRange {r : Run} {v : Nat} (hv : 256 ≤ v) :
    (encodeSymbol v).run r = .error (.raised .invalidSymbol (BitVec.ofNat 32 v)) r := by
  rw [encodeSymbol, bind_of_ok (getState_run _), dif_neg (Nat.not_lt.2 hv), raise_run]

/-- The loop of pass 2 stops at a value out of range, which it has read (R260). -/
theorem encodeLoop_outOfRange {s : State} {v : Nat} {rest : Bits} (hv : 256 ≤ v) (hwidth : v < 2 ^ s.build.symInW)
    (hu : s.unread = natToBits s.build.symInW v ++ rest) (fuel : Nat) :
    (encodeLoop (fuel + 1)).run ⟨s, none⟩ =
      .error (.raised .invalidSymbol (BitVec.ofNat 32 v)) ⟨setSrcPos (s.src.pos + s.build.symInW) s, none⟩ := by
  rw [encodeLoop, bind_of_ok (getState_run _), bind_of_ok (srcRead_field hu), Nat.mod_eq_of_lt hwidth]
  exact bind_of_error (encodeSymbol_outOfRange hv)

/-- Pass 2 sends the header and the codes of the symbols before the first value out of range, and has read that value
(R260, R331). -/
theorem compressPass2_outOfRange {s : State} {tree : CodeTree} {pre : List Nat} {v : Nat} {rest : Bits}
    (htree : s.tree = some tree) (hcode : s.code = tree.table)
    (hpre : ∀ x ∈ pre, x < 256 ∧ BitVec.ofNat 9 x ∈ tree.symbols) (hv : 256 ≤ v) (hwidth : v < 2 ^ s.build.symInW)
    (hbits : s.src.bits = pre.flatMap (natToBits s.build.symInW) ++ (natToBits s.build.symInW v ++ rest)) :
    ∃ work, compressPass2.run ⟨s, none⟩ = .error (.raised .invalidSymbol (BitVec.ofNat 32 v))
      ⟨{ setSrcPos (s.build.symInW * (pre.length + 1)) (appendSnk (s.magicBits ++ tree.tokens ++ tree.encodeAll pre) s)
          with work := work }, none⟩ := by
  have hlen := code_length_le_of_tree htree
  obtain ⟨sent, hsent, hheader⟩ : ∃ sent : State,
      sent = { appendSnk (s.magicBits ++ tree.tokens) (setSrcPos 0 s) with work := sent.work } ∧
      writeHeader.run ⟨setSrcPos 0 (setPass 2 s), none⟩ = .ok () ⟨sent, none⟩ :=
    ⟨_, rfl, writeHeader_run (s := setSrcPos 0 (setPass 2 s)) htree⟩
  have hbuild : sent.build = s.build := by rw [hsent]; rfl
  have hcode' : sent.code = tree.table := by rw [hsent]; exact hcode
  have hpos : sent.src.pos = 0 := by rw [hsent]; rfl
  have hunread : sent.unread = pre.flatMap (natToBits sent.build.symInW) ++ (natToBits sent.build.symInW v ++ rest) := by
    rw [hbuild, ← hbits, hsent]
    rfl
  have hroom : pre.length < srcLeft sent + 1 := length_lt_fuel hunread
  obtain ⟨fuel, hfuel⟩ := Nat.exists_eq_add_of_lt hroom
  have hbody := encodeLoop_symbols hlen hcode' hpre hunread (fuel + 1)
  rw [hpos, hbuild, Nat.zero_add] at hbody
  have hnext : (setSrcPos (s.build.symInW * pre.length) (appendSnk (tree.encodeAll pre) sent)).unread =
      natToBits s.build.symInW v ++ rest := by
    have h := unread_setSrcPos hunread (flatMap_natToBits_length ..)
    rw [hpos, hbuild, Nat.zero_add, Nat.mul_comm] at h
    exact h
  have hstop := encodeLoop_outOfRange (s := setSrcPos (s.build.symInW * pre.length)
    (appendSnk (tree.encodeAll pre) sent)) hv (hbuild ▸ hwidth) (hnext.trans (by rw [← hbuild]; rfl)) fuel
  refine ⟨sent.work, (bind_of_ok (modState_run ..)).trans <| (bind_of_ok (srcRewind_run _)).trans <|
    (bind_of_ok hheader).trans <| (bind_of_ok (getState_run _)).trans <| bind_of_error ?_⟩
  have hsplit : srcLeft sent + 1 = pre.length + (fuel + 1) := hfuel
  rw [hsplit, hbody, hstop, hsent]
  simp [setSrcPos, appendSnk, Nat.mul_succ]

/-! ### The obligations -/

/-- The two commands that compress have one rule, with F as its parameter. -/
theorem ruleOf_eq_ruleCompress {i : Instr} {force : Bool}
    (hi : i = .encCompress ∧ force = false ∨ i = .encCompressF ∧ force = true) : ruleOf i = ruleCompress force := by
  rcases hi with ⟨rfl, rfl⟩ | ⟨rfl, rfl⟩ <;> rfl

section
variable {i : Instr} {s u : State} {work : Work}

/-- Of the working state nothing is left when a command is done (R49, R163). -/
theorem exec_of_ok_work (h : (ruleOf i).run ⟨s, none⟩ = .ok () ⟨{ u with work := work }, none⟩) :
    exec i s = .next (done u) := exec_of_ok h

/-- Of the working state nothing is left after an error (R49, R330). -/
theorem exec_raised_work {e : ErrKind} {info : Word}
    (h : (ruleOf i).run ⟨s, none⟩ = .error (.raised e info) ⟨{ u with work := work }, none⟩) :
    ∃ t, exec i s = .next t ∧ EndsInError e info u t := exec_raised h

end

section
variable {s : State} {tree : CodeTree} {vs : List Nat}

theorem afterPass1_tree (h : (storeTree (s.counted vs s.src.bits.length)).tree = some tree) :
    (s.afterPass1 vs tree).tree = some tree := by
  refine (tree_congr ?_ ?_).trans h <;> rw [State.afterPass1]

theorem tree_withWork (s : State) (work : Work) : ({ s with work := work } : State).tree = s.tree :=
  tree_congr rfl rfl

theorem afterPass1_code : (s.afterPass1 vs tree).code = tree.table := by rw [State.afterPass1]

theorem afterPass1_build : (s.afterPass1 vs tree).build = s.build := by rw [State.afterPass1]; rfl

theorem afterPass1_snk : (s.afterPass1 vs tree).snk = s.snk := by rw [State.afterPass1]; rfl

theorem afterPass1_src : (s.afterPass1 vs tree).src = { s.src with pos := s.src.bits.length } := by
  rw [State.afterPass1]; rfl

end

/-- Settles O43: where the size policy says no, pass 1 is all that is done. -/
theorem skippedCompressRaisesNothing : Obligations.SkippedCompressRaisesNothing := by
  intro s hrewind _ hin hout
  obtain ⟨tree, work, htree, -, hrun⟩ := ruleCompress_counted hrewind ⟨hin, hout⟩
  refine ⟨tree, htree, fun hskip => ?_⟩
  have hskipped := (hrun false).trans (if_neg (by simpa using hskip))
  exact exec_of_ok_work (i := .encCompress) hskipped

/-- The length of an archive is the one projected (R261). -/
theorem archive_length {s : State} {tree : CodeTree} {vs : List Nat} (hvs : ∀ v ∈ vs, v < 256) :
    (s.magicBits ++ tree.tokens ++ tree.encodeAll vs ++ (tree.codeOf 256).getD []).length = tree.archiveBits vs := by
  rw [CodeTree.archiveBits, inRange_eq_self hvs, ← header_length]
  simp [State.magicBits, Nat.add_assoc]

/-- An archive is shorter than 2^41 bits (R261): a code has at most 256 bits. -/
theorem archiveBits_lt {tree : CodeTree} {vs : List Nat} (hlen : ∀ p ∈ tree.codes, p.2.length ≤ 256)
    (hleaves : tree.leafCount ≤ 257) (hvs : (inRange vs).length < 2 ^ 32) : tree.archiveBits vs < 2 ^ 41 := by
  have hcode : ∀ sym, ((tree.codeOf sym).getD []).length ≤ 256 := by
    intro sym
    cases h : tree.codeOf sym with
    | none => exact Nat.zero_le _
    | some path => exact hlen _ (mem_codes_of_codeOf h)
  have hbody := List.sum_le_card_nsmul
    ((inRange vs).map fun v => ((tree.codeOf (BitVec.ofNat 9 v)).getD []).length) 256 (by simpa using fun v _ => hcode _)
  have hsentinel := hcode 256
  rw [← encodeAll_length, List.length_map, smul_eq_mul] at hbody
  rw [CodeTree.archiveBits]
  omega

section
variable {p : State} {tree : CodeTree} (work : Work) (htree : p.tree = some tree) (hcode : p.code = tree.table)
include htree hcode

/-- Pass 2 from the end of SRC, where pass 1 leaves it, to the end of SRC (R260). -/
theorem compressPass2_archive {vs : List Nat} {rest : Bits} (hpos : p.src.pos = p.src.bits.length)
    (hvs : ∀ v ∈ vs, v < 256 ∧ BitVec.ofNat 9 v ∈ tree.symbols)
    (hbits : p.src.bits = vs.flatMap (natToBits p.build.symInW) ++ rest) (hrest : rest.length < p.build.symInW) :
    ∃ work', compressPass2.run ⟨{ p with work := work }, none⟩ = .ok ()
      ⟨{ { p with snk := p.snk ++ archiveOf p.magicBits tree vs, status := { p.status with wrote := true } } with
          work := work' }, none⟩ := by
  obtain ⟨work', hrun⟩ := compressPass2_run (s := { p with work := work }) ((tree_withWork p work).trans htree) hcode hvs
    hbits hrest
  have hsrc : ({ p.src with pos := p.src.bits.length } : Src) = p.src := by rw [← hpos]
  refine ⟨work', hrun.trans ?_⟩
  simp only [putWrote, setSrcPos, appendSnk, hsrc]
  rfl

/-- Pass 2 up to the first value out of range (R260, R331). -/
theorem compressPass2_stops {pre : List Nat} {v : Nat} {rest : Bits}
    (hpre : ∀ x ∈ pre, x < 256 ∧ BitVec.ofNat 9 x ∈ tree.symbols) (hv : 256 ≤ v) (hwidth : v < 2 ^ p.build.symInW)
    (hbits : p.src.bits = pre.flatMap (natToBits p.build.symInW) ++ (natToBits p.build.symInW v ++ rest)) :
    ∃ work', compressPass2.run ⟨{ p with work := work }, none⟩ = .error (.raised .invalidSymbol (BitVec.ofNat 32 v))
      ⟨{ { p with snk := p.snk ++ (p.magicBits ++ tree.tokens ++ tree.encodeAll pre),
                  src := { p.src with pos := p.build.symInW * (pre.length + 1) } } with work := work' }, none⟩ :=
  compressPass2_outOfRange (s := { p with work := work }) ((tree_withWork p work).trans htree) hcode hpre hv hwidth hbits

end

/-- Settles O42: pass 1 leaves a code for every symbol of the input, so pass 2 writes the whole archive. -/
theorem compressWritesTheArchive : Obligations.CompressWritesTheArchive := by
  intro s i force hi hrewind hpos hvs hlen
  have hcount : Countable s.inputSymbols := by
    rw [Countable, inRange_eq_self hvs, outOfRange_eq_nil hvs]
    exact ⟨hlen, by decide⟩
  obtain ⟨tree, work, htree, hperm, hrun⟩ := ruleCompress_counted hrewind hcount
  have hrun := hrun force
  rw [← ruleOf_eq_ruleCompress hi] at hrun
  refine ⟨tree, htree, ?_⟩
  intro archive p
  have harchive : archive.length = tree.archiveBits s.inputSymbols := archive_length hvs
  have hpolicy : (force = true ∨ archive.length < 8 * s.inputSymbols.length) ↔
      (force = true ∨ tree.archiveBits s.inputSymbols < 8 * (inRange s.inputSymbols).length) := by
    rw [harchive, inRange_eq_self hvs]
  have hshort : archive.length < 2 ^ 41 :=
    harchive.trans_lt (archiveBits_lt (code_length_le_of_tree htree) (leafCount_le_walkFuel hperm) hcount.1)
  rw [hpolicy]
  refine ⟨harchive, hshort, fun hwrite => ?_, fun hskip => exec_of_ok_work (hrun.trans (if_neg hskip))⟩
  obtain ⟨rest, hu, hrest, -⟩ := unread_eq_inputSymbols s
  rw [State.unread, hpos, List.drop_zero] at hu
  have hsrc : p.src = { s.src with pos := s.src.bits.length } := afterPass1_src
  have hbuild : p.build = s.build := afterPass1_build
  have hsnk : p.snk = s.snk := afterPass1_snk
  obtain ⟨work', hpass2⟩ := compressPass2_archive (p := p) work (afterPass1_tree htree) afterPass1_code (by rw [hsrc])
    (fun v hv => ⟨hvs v hv, mem_symbols_of_countable hperm hcount (hvs v hv) hv⟩)
    (by rw [hsrc, hbuild]; exact hu) (by rw [hbuild]; exact hrest)
  rw [hsnk, State.magicBits, hbuild] at hpass2
  exact exec_of_ok_work ((hrun.trans (if_pos hwrite)).trans hpass2)

/-- Settles O44: the values before the first one out of range were counted, so they have codes, and that one has none. -/
theorem compressStopsAtAnUncodableValue : Obligations.CompressStopsAtAnUncodableValue := by
  intro s i force pre post v hi hrewind hpos hin hout hinput hpre hv
  obtain ⟨tree, work, htree, hperm, hrun⟩ := ruleCompress_counted hrewind ⟨hin, hout⟩
  have hrun := hrun force
  rw [← ruleOf_eq_ruleCompress hi] at hrun
  refine ⟨tree, htree, fun hwrite => ?_⟩
  obtain ⟨rest, hu, -, hwidth⟩ := unread_eq_inputSymbols s
  rw [State.unread, hpos, List.drop_zero, hinput, List.flatMap_append, List.flatMap_cons, List.append_assoc,
    List.append_assoc] at hu
  have hsrc : (s.afterPass1 s.inputSymbols tree).src = { s.src with pos := s.src.bits.length } := afterPass1_src
  have hbuild : (s.afterPass1 s.inputSymbols tree).build = s.build := afterPass1_build
  have hsnk : (s.afterPass1 s.inputSymbols tree).snk = s.snk := afterPass1_snk
  have hmem : ∀ x ∈ pre, x ∈ s.inputSymbols := fun x hx => hinput ▸ List.mem_append_left _ hx
  have hv' : v ∈ s.inputSymbols := hinput ▸ List.mem_append_right _ List.mem_cons_self
  obtain ⟨work', hpass2⟩ := compressPass2_stops work (afterPass1_tree htree) afterPass1_code
    (fun x hx => ⟨hpre x hx, mem_symbols_of_countable hperm ⟨hin, hout⟩ (hpre x hx) (hmem x hx)⟩) hv
    (by rw [hbuild]; exact hwidth v hv') (by rw [hsrc, hbuild]; exact hu)
  rw [hsnk, hsrc, State.magicBits, hbuild] at hpass2
  rw [List.append_assoc s.snk, List.append_assoc s.snk]
  exact exec_raised_work ((hrun.trans (if_pos hwrite)).trans hpass2)

end Sys2Proof.Machine
end

section
/-! The order of the candidates (R202): the candidate that is taken is the least by weight and slot. -/

namespace Sys2Proof.Machine

variable {node : Vector Node 513}

/-- `x` stands before `c` in the order of the candidates (R202). -/
def Precedes (node : Vector Node 513) (x c : Slot) : Prop :=
  (weightOf node[x.val]).toNat < (weightOf node[c.val]).toNat ∨
    weightOf node[x.val] = weightOf node[c.val] ∧ x < c

theorem keyLess_iff (a b : Slot) : keyLess node a b = true ↔ Precedes node a b := by
  simp [keyLess, Precedes]

theorem precedes_trans {a b c : Slot} (hab : Precedes node a b) (hbc : Precedes node b c) : Precedes node a c := by
  unfold Precedes at *
  rcases hab with hab | ⟨hab, hlt⟩ <;> rcases hbc with hbc | ⟨hbc, hlt'⟩
  · exact .inl (hab.trans hbc)
  · exact .inl (hbc ▸ hab)
  · exact .inl (hab ▸ hbc)
  · exact .inr ⟨hab.trans hbc, hlt.trans hlt'⟩

/-- Of two candidates one stands before the other. -/
theorem precedes_of_not {a b : Slot} (h : ¬ Precedes node b a) (hne : a ≠ b) : Precedes node a b := by
  simp only [Precedes, not_or, not_and, Nat.not_lt, Fin.not_lt] at h
  obtain ⟨hle, htie⟩ := h
  rcases hle.lt_or_eq with hlt | heq
  · exact .inl hlt
  · have heq := BitVec.eq_of_toNat_eq heq
    exact .inr ⟨heq, (htie heq.symm).lt_of_ne hne⟩

/-- What stands before some candidates stands before one that one of them stands before. -/
theorem precedes_of_kept {r kept dropped : Slot} {l : List Slot} (h : ∀ c ∈ kept :: l, c ≠ r → Precedes node r c)
    (hkept : dropped ≠ kept → Precedes node kept dropped) : dropped ≠ r → Precedes node r dropped := by
  intro hne
  by_cases heq : dropped = kept
  · exact h dropped (heq ▸ List.mem_cons_self) hne
  by_cases hr : kept = r
  · exact hr ▸ hkept heq
  · exact precedes_trans (h kept List.mem_cons_self hr) (hkept heq)

/-- The candidate that is taken stands before all others (R202). -/
theorem leastFrom_precedes (a : Slot) (l : List Slot) :
    ∀ c ∈ a :: l, c ≠ leastFrom node a l → Precedes node (leastFrom node a l) c := by
  induction l generalizing a with
  | nil =>
    intro c hc hne
    exact absurd (List.mem_singleton.1 hc) hne
  | cons b l ih =>
    rw [leastFrom]
    split
    case isTrue hless =>
      have hall := ih b
      refine List.forall_mem_cons.2 ⟨precedes_of_kept hall fun _ => (keyLess_iff b a).1 hless, hall⟩
    case isFalse hless =>
      have hall := ih a
      rw [keyLess_iff] at hless
      obtain ⟨ha, hl⟩ := List.forall_mem_cons.1 hall
      refine List.forall_mem_cons.2 ⟨ha, List.forall_mem_cons.2 ⟨precedes_of_kept hall fun hne => ?_, hl⟩⟩
      exact precedes_of_not hless hne.symm

/-- Of the candidates the least one is taken, and the others are left (R202). -/
theorem takeLeast_spec {l : List Slot} (h : l ≠ []) :
    ∃ x ∈ l, takeLeast node l = some (x, l.erase x) ∧ ∀ c ∈ l, c ≠ x → Precedes node x c := by
  cases l with
  | nil => exact absurd rfl h
  | cons a l => exact ⟨_, leastFrom_mem node a l, rfl, leastFrom_precedes a l⟩

/-- Settles O27: the first candidate taken is the least of all, and the second the least of those left. -/
theorem mergeTakesTheTwoLeast : Obligations.MergeTakesTheTwoLeast := by
  intro b hnodup htwo
  obtain ⟨x, hx, htake, hleast⟩ := takeLeast_spec (node := b.node) (List.ne_nil_of_length_pos (by omega : 0 < b.cands.length))
  have hothers : b.cands.erase x ≠ [] := by
    refine List.ne_nil_of_length_pos ?_
    rw [List.length_erase_of_mem hx]
    omega
  obtain ⟨y, hy, htake', hleast'⟩ := takeLeast_spec (node := b.node) hothers
  obtain ⟨hne, hy'⟩ := hnodup.mem_erase_iff.1 hy
  refine ⟨x, y, hx, hy', hne.symm, hleast, fun c hc hcx hcy => hleast' c (hnodup.mem_erase_iff.2 ⟨hcx, hc⟩) hcy, ?_⟩
  exact mergeOnce_of_takeLeast htake htake'

/-- Settles O30: the sentinel is the only symbol, so its leaf is the whole tree. -/
theorem emptyTableGivesTheOneLeafTree : Obligations.EmptyTableGivesTheOneLeafTree := by
  intro s hzero
  have hsyms : treeSymbols s.freq = [256] := by simp [treeSymbols_eq, countedSymbols, hzero]
  obtain ⟨tree, slots, htree, hperm, -⟩ := built_treeAt s
  have hwalk := (htree.walk (leafCount_le_walkFuel hperm)).1
  rw [hsyms] at hperm
  have hleaf : tree = .leaf 256 := by
    cases tree with
    | leaf sym => simpa using hperm
    | node l r =>
      have hl := leafCount_pos l
      have hr := leafCount_pos r
      have := leafCount_of_symbols_perm hperm
      rw [CodeTree.leafCount, List.length_singleton] at this
      omega
  subst hleaf
  refine ⟨built s, exec_tbBuild s, ?_, hwalk, ?_, ?_, rfl⟩
  · rw [built_root, hsyms]; rfl
  · rw [built_nleaves, hsyms]; rfl
  · rw [built_eq, done_nnodes, hsyms]; rfl

end Sys2Proof.Machine
end

section
/-! The decoder on whole archives and on one with more symbols than it can count (R280). -/

namespace Sys2Proof.Machine

/-- Settles O46: the tree that was read stands in the node memory, and the walk through the body writes its symbols. -/
theorem decompressWritesTheSymbols : Obligations.DecompressWritesTheSymbols :=
  fun s _ _ _ _ hnodes hbody hlast hcount hu =>
    ⟨_, holdsRebuilt_rebuilt hnodes s.node, exec_decDecompress hbody hlast hcount hnodes hu⟩

/-- A symbol after 2^61 - 1 symbols is an error, and is not written (R280). -/
theorem decodeLoop_full {s : State} {b : Bool} {rest : Bits} {sym : BitVec 9} {w : BitVec 41}
    (hu : s.unread = b :: rest) (hsym : sym.toNat < 256) (hfull : s.work.symbols = 2 ^ 61 - 1)
    (hn : s.node[(childOf s.node s.work.walker b.toNat).val] = .leaf sym w) (fuel : Nat) :
    (decodeLoop (fuel + 1)).run ⟨s, none⟩ =
      .error (.raised .countOverflow 0) ⟨walkedTo (childOf s.node s.work.walker b.toNat) 1 s, none⟩ := by
  have hne : sym ≠ 256#9 := by rintro rfl; simp at hsym
  have hle : ¬ 256 < sym.toNat := by omega
  have hfull' : s.work.symbols = 2305843009213693951 := hfull
  simp [decodeLoop, srcRead_bit hu, hn, hne, hle, hfull', walkedTo]

/-- The code of that symbol is read whole before the error (R280). -/
theorem decodeLoop_countOverflow {s : State} {tree : CodeTree} {slots : List Slot} {next : BitVec 9 × Bits} {rest : Bits}
    (htree : TreeAt s.node s.work.walker tree slots) (hnext : next ∈ tree.codes) (hsym : next.1.toNat < 256)
    (hne : next.2 ≠ []) (hfull : s.work.symbols = 2 ^ 61 - 1) (hu : s.unread = next.2 ++ rest) (fuel : Nat) :
    ∃ i, (decodeLoop (next.2.length + fuel)).run ⟨s, none⟩ =
      .error (.raised .countOverflow 0) ⟨walkedTo i next.2.length s, none⟩ := by
  obtain ⟨sym, code⟩ := next
  obtain ⟨path, b, rfl⟩ := List.eq_nil_or_concat code |>.resolve_left hne
  rw [List.concat_eq_append] at *
  rw [List.append_assoc, List.singleton_append] at hu
  obtain ⟨i, w, hleaf, hrun⟩ := decodeLoop_toLastBit htree hnext hu (fuel + 1)
  refine ⟨childOf s.node i b.toNat, ?_⟩
  rw [List.length_append, List.length_singleton, Nat.add_assoc, Nat.add_comm 1, hrun]
  rw [decodeLoop_full (s := walkedTo i path.length s) (walkedTo_unread i hu) hsym hfull hleaf]
  simp [walkedTo, setWalker, setSrcPos, Nat.add_assoc]

/-- Settles O50: 2^61 - 1 symbols are decoded, and the walk of the next code ends at a leaf that can no longer be
counted. -/
theorem decompressStopsAtCountOverflow : Obligations.DecompressStopsAtCountOverflow := by
  intro s tree body next rest hnodes hbody hnext hsym hne hcount hu
  have hheader : s.unread = s.magicBits ++ tree.tokens ++ (body.flatMap Prod.snd ++ (next.2 ++ rest)) := by
    simpa only [List.append_assoc] using hu
  have htree := headerRead_treeAt hnodes s
  have hafter := headerRead_unread hheader
  cases tree with
  | leaf sym => exact absurd (congrArg Prod.snd (List.mem_singleton.1 hnext)) hne
  | node l r =>
    have hcodes := decodeBody_codes htree hbody (by omega) hafter
    have hfull : (decoded body (atBodyStart (headerRead (.node l r) s))).work.symbols = 2 ^ 61 - 1 :=
      (Nat.zero_add _).trans hcount
    obtain ⟨i, hend⟩ := decodeLoop_countOverflow (s := decoded body (atBodyStart (headerRead (.node l r) s))) htree hnext
      hsym hne hfull (decoded_unread hafter) (rest.length + 1)
    obtain ⟨work, hwork⟩ := walkedTo_decoded (headerRead (.node l r) s) body i next.2.length
    rw [List.length_append, Nat.add_assoc, hend, hwork] at hcodes
    obtain ⟨t, ht⟩ := exec_bodyError hheader hnodes hcodes
    exact ⟨t, _, holdsRebuilt_rebuilt hnodes s.node, ht⟩

end Sys2Proof.Machine
end

section
/-! Every accepted command completes (R166): no rule waits, and each loop and walk comes to its end within its fuel. -/

namespace Sys2Proof.Machine

/-! ### Pieces of a rule that come to an end -/

section
variable {α β : Type}

/-- With any number of actions to perform, x ends well or in an error. -/
def Finishes (x : Cmd α) (s : State) : Prop :=
  match x.run ⟨s, none⟩ with
  | .ok _ r => r.left = none
  | .error (.raised _ _) _ => True
  | .error .paused _ => False

variable {x : Cmd α} {f : α → Cmd β} {s u : State}

theorem finishes_of_ok {a : α} (h : x.run ⟨s, none⟩ = .ok a ⟨u, none⟩) : Finishes x s := by
  rw [Finishes, h]

theorem finishes_of_raised {e : ErrKind} {info : Word} {r : Run} (h : x.run ⟨s, none⟩ = .error (.raised e info) r) :
    Finishes x s := by
  rw [Finishes, h]
  trivial

theorem finishes_congr {y : Cmd α} (h : x.run ⟨s, none⟩ = y.run ⟨u, none⟩) (hy : Finishes y u) : Finishes x s := by
  rwa [Finishes, h]

theorem finishes_raise (e : ErrKind) (info : Word) (s : State) : Finishes (raise e info : Cmd α) s :=
  finishes_of_raised rfl

theorem finishes_pure (a : α) (s : State) : Finishes (pure a) s := finishes_of_ok rfl

theorem finishes_modState (f : State → State) (s : State) : Finishes (modState f) s := finishes_of_ok rfl

theorem Finishes.bind (hx : Finishes x s) (hf : ∀ a u, x.run ⟨s, none⟩ = .ok a ⟨u, none⟩ → Finishes (f a) u) :
    Finishes (x >>= f) s := by
  unfold Finishes at hx
  rcases h : x.run ⟨s, none⟩ with ⟨a, ⟨u, left⟩⟩ | ⟨e | _, r⟩ <;> rw [h] at hx
  · obtain rfl : left = none := hx
    exact finishes_congr (bind_of_ok h) (hf a u h)
  · exact finishes_of_raised (bind_of_error h)
  · exact hx.elim

theorem Finishes.unspecifiedOnError {f : State → State} (h : Finishes x s) :
    Finishes (unspecifiedOnError f x) s := by
  unfold Finishes at *
  rw [unspecifiedOnError_run]
  rcases hrun : x.run ⟨s, none⟩ with ⟨a, r⟩ | ⟨e | _, r⟩ <;> rw [hrun] at h
  · exact h
  · trivial
  · exact h.elim

/-- What comes after a piece that is known to end well. -/
theorem finishes_bind {a : α} (h : x.run ⟨s, none⟩ = .ok a ⟨u, none⟩) (hf : Finishes (f a) u) : Finishes (x >>= f) s :=
  finishes_congr (bind_of_ok h) hf

end

section
variable (s : State)

theorem finishes_srcRead (n : Nat) : Finishes (srcRead n) s := by
  by_cases h : n ≤ srcLeft s
  · exact finishes_of_ok (srcRead_value h)
  · exact finishes_of_ok (srcRead_eos (Nat.not_le.1 h))

theorem finishes_symbolOperand : Finishes symbolOperand s := by
  refine finishes_bind (getState_run _) ?_
  split
  · exact finishes_pure ..
  · exact finishes_raise ..

theorem finishes_codeSymbolOperand : Finishes codeSymbolOperand s := by
  refine finishes_bind (getState_run _) ?_
  split
  · exact finishes_pure ..
  · exact finishes_raise ..

/-! ### Headers and bodies -/

theorem finishes_parse (fuel : Nat) : Finishes (parse fuel) s := by
  induction fuel generalizing s with
  | zero => exact finishes_raise ..
  | succ fuel ih =>
    refine finishes_bind (getState_run _) ?_
    split
    · exact finishes_raise ..
    · refine finishes_bind (modState_run ..) ((finishes_srcRead ..).bind fun t u _ => ?_)
      split
      · exact finishes_raise ..
      · refine finishes_bind (modState_run ..) ?_
        split
        · refine (finishes_srcRead ..).bind fun v u _ => ?_
          split
          · exact finishes_raise ..
          · exact finishes_bind (modState_run ..) (finishes_bind (modState_run ..) (finishes_pure ..))
        · exact (ih _).bind fun _ _ _ => (ih _).bind fun _ _ _ => finishes_bind (modState_run ..) (finishes_pure ..)

theorem finishes_readHeaderTokens : Finishes readHeaderTokens s := by
  refine (finishes_srcRead ..).bind fun v u _ => ?_
  split
  · exact finishes_raise ..
  · refine finishes_bind (getState_run _) ?_
    split
    · exact finishes_raise ..
    · exact finishes_bind (modState_run ..) ((finishes_parse ..).bind fun _ _ _ => finishes_modState ..)

/-- All that reading a header can do: a tree is read, or an error leaves a tree of any values (R243). -/
theorem readHeader_cases :
    (∃ u, readHeader.run ⟨s, none⟩ = .ok () ⟨u, none⟩ ∧ u.TreeOnly) ∨
    ∃ e info u, readHeader.run ⟨s, none⟩ = .error (.raised e info) ⟨scrambleTree u, none⟩ ∧
      (scrambleTree u).NothingValid := by
  have hleads := leads_readHeader ⟨s, none⟩ trivial
  have hfinishes := finishes_readHeaderTokens (putNothingValid s)
  have hwhole := (within_readHeaderTokens (w := [.src, .tree]) (by decide) (by decide)).whole (putNothingValid s)
  unfold Finishes at hfinishes
  rcases h : readHeaderTokens.run ⟨putNothingValid s, none⟩ with ⟨a, ⟨u, left⟩⟩ | ⟨e | _, ⟨u, left⟩⟩ <;>
    rw [h] at hfinishes hwhole
  · obtain rfl : left = none := hwhole
    have hrun : readHeader.run ⟨s, none⟩ = .ok () ⟨putTreeValid true u, none⟩ := by
      rw [readHeader, bind_of_ok (modState_run ..), bind_run, unspecifiedOnError_run, h]
      rfl
    rw [hrun] at hleads
    exact .inl ⟨_, hrun, hleads⟩
  · obtain rfl : left = none := hwhole
    have hrun := readHeader_raised h
    rw [hrun] at hleads
    exact .inr ⟨_, _, u, hrun, hleads⟩
  · exact hfinishes.elim

theorem finishes_readHeader : Finishes readHeader s := by
  rcases readHeader_cases s with ⟨u, h, -⟩ | ⟨e, info, u, h, -⟩
  · exact finishes_of_ok h
  · exact finishes_of_raised h

/-- Each turn of the decoder's loop reads a bit, so it has fuel for all that SRC holds (R280). -/
theorem finishes_decodeLoop {fuel : Nat} (hfuel : srcLeft s < fuel) : Finishes (decodeLoop fuel) s := by
  induction fuel generalizing s with
  | zero => omega
  | succ fuel ih =>
    by_cases hbit : 1 ≤ srcLeft s
    case neg => exact finishes_bind (srcRead_eos (Nat.not_le.1 hbit)) (finishes_raise ..)
    have hless : ∀ u : State, u.src = (setSrcPos (s.src.pos + 1) s).src → srcLeft u < fuel := by
      intro u hu
      unfold srcLeft at *
      rw [hu]
      simp only [setSrcPos_src]
      omega
    refine finishes_bind (srcRead_value hbit) (finishes_bind (getState_run _) (finishes_bind (modState_run ..) ?_))
    split
    · exact ih _ (hless _ rfl)
    · split_ifs
      · exact finishes_pure ..
      · exact finishes_raise ..
      · exact finishes_raise ..
      · exact finishes_bind (snkWrite_run ..) (finishes_bind (modState_run ..) (finishes_bind (modState_run ..)
          (ih _ (hless _ rfl))))

theorem finishes_decodeBody : Finishes decodeBody s := by
  cases hn : s.node[s.root.val] with
  | leaf sym w =>
    refine finishes_bind (modState_run ..) (finishes_bind (modState_run ..) (finishes_bind (getState_run _) ?_))
    simp only [setWalker_node, setSymbols_node, setWalker_root, setSymbols_root, hn]
    split
    · exact finishes_pure ..
    · exact finishes_raise ..
  | internal x y w =>
    refine finishes_congr (decodeBody_internal hn) (finishes_decodeLoop _ ?_)
    rw [srcLeft_eq_unread_length]
    exact Nat.lt_succ_self _

/-! ### The encoder -/

theorem finishes_encodeSymbol (v : Nat) : Finishes (encodeSymbol v) s := by
  refine finishes_bind (getState_run _) ?_
  split
  · split
    · exact finishes_of_ok (snkWriteBits_run ..)
    · exact finishes_raise ..
  · exact finishes_raise ..

/-- Each turn of the loop of pass 2 reads a symbol (R260). -/
theorem finishes_encodeLoop {fuel : Nat} (hfuel : srcLeft s < fuel) : Finishes (encodeLoop fuel) s := by
  induction fuel generalizing s with
  | zero => omega
  | succ fuel ih =>
    by_cases hread : s.build.symInW ≤ srcLeft s
    case neg => exact finishes_bind (getState_run _) (finishes_bind (srcRead_eos (Nat.not_le.1 hread)) (finishes_pure ..))
    refine finishes_bind (getState_run _) (finishes_bind (srcRead_value hread)
      ((finishes_encodeSymbol ..).bind fun _ u h => ih u ?_))
    have hframe := (within_encodeSymbol (w := [.snk]) (by decide) (srcField s.build.symInW s)).frame
      ⟨setSrcPos (s.src.pos + s.build.symInW) s, none⟩
    rw [h] at hframe
    have hsrc : u.src = { s.src with pos := s.src.pos + s.build.symInW } := hframe.src (by decide)
    have hpos := symInW_pos s.build
    unfold srcLeft at *
    rw [hsrc]
    simp only
    omega

theorem finishes_compressPass2 {tree : CodeTree} (htree : s.tree = some tree) : Finishes compressPass2 s := by
  refine finishes_bind (modState_run ..) (finishes_bind (srcRewind_run _) (finishes_bind
    (writeHeader_run (s := setSrcPos 0 (setPass 2 s)) htree) (finishes_bind (getState_run _) ?_)))
  exact (finishes_encodeLoop _ (Nat.lt_succ_self _)).bind fun _ u _ => finishes_bind (getState_run _)
    (finishes_bind (snkWriteBits_run ..) (finishes_of_ok (setWrote_run ..)))

theorem finishes_countPass : Finishes countPass s := by
  rcases countable_or_full s.inputSymbols with h | ⟨pre, v, post, hinput, hpre, hv⟩
  · exact finishes_of_ok (countPass_counted s h)
  · exact finishes_of_raised (countPass_full s hinput hpre hv)

theorem finishes_ruleCompress (force : Bool) : Finishes (ruleCompress force) s := by
  cases hrewind : s.src.rewindable with
  | false =>
    refine finishes_bind (getState_run _) ?_
    rw [if_pos hrewind]
    exact finishes_raise ..
  | true =>
    rcases countable_or_full s.inputSymbols with h | ⟨pre, v, post, hinput, hpre, hv⟩
    · obtain ⟨tree, work, htree, -, hrun⟩ := ruleCompress_counted hrewind h
      have hrun := hrun force
      have htree' := (tree_withWork (s.afterPass1 s.inputSymbols tree) work).trans (afterPass1_tree htree)
      generalize ({ s.afterPass1 s.inputSymbols tree with work := work } : State) = u at hrun htree'
      split_ifs at hrun
      · exact finishes_congr hrun (finishes_compressPass2 u htree')
      · exact finishes_of_ok hrun
    · have hcount := countPass_full (setPass 1 s) hinput hpre hv
      exact finishes_of_raised ((ruleCompress_run hrewind force).trans
        (bind_of_error ((bind_of_ok (modState_run ..)).trans (bind_of_error hcount))))

/-! ### Every rule -/

theorem finishes_fillCode {tree : CodeTree} (htree : s.tree = some tree) : Finishes fillCode s := by
  rcases recordable_or_fault tree.symbols with hall | ⟨pre, sym, post, hsyms, hpre, hsym⟩
  · exact finishes_of_ok (fillCode_run htree hall.1 fun sym h => Nat.lt_succ_of_le (hall.2 sym h))
  · obtain ⟨code, hfault⟩ := fillCode_fault htree hsyms hpre hsym
    exact finishes_of_raised hfault

theorem finishes_ctMakeFill (htree : s.treeInv) : Finishes ctMakeFill s := by
  refine .unspecifiedOnError (finishes_bind (getState_run _) ?_)
  split
  case isTrue => exact finishes_raise ..
  case isFalse hvalid =>
    obtain ⟨tree, htree, -⟩ := htree (by simpa using hvalid)
    exact finishes_fillCode s htree

/-- Every rule comes to its end (R166); the two that walk the tree do so over one that is valid. -/
theorem finishes_ruleOf (i : Instr) (htree : s.treeInv) : Finishes (ruleOf i) s := by
  cases i with
  | nop => exact finishes_pure ..
  | fcClear => exact finishes_modState ..
  | fcCount => exact (finishes_countPass s).bind fun _ _ _ => finishes_modState ..
  | fcGet => exact (finishes_symbolOperand s).bind fun _ _ _ => finishes_modState ..
  | fcAdd =>
    refine (finishes_symbolOperand s).bind fun _ _ _ => finishes_bind (getState_run _) ?_
    split
    · exact finishes_raise ..
    · exact finishes_modState ..
  | fcSet => exact (finishes_symbolOperand s).bind fun _ _ _ => finishes_modState ..
  | tbBuild =>
    exact finishes_bind (setTableValid_run ..) (finishes_bind (modState_run ..) (finishes_bind (setTreeValid_run ..)
      (finishes_modState ..)))
  | ctMake =>
    exact finishes_bind (modState_run ..) ((finishes_ctMakeFill (putTableValid false s) htree).bind
      fun _ _ _ => finishes_bind (completing_unlimited _) (finishes_modState ..))
  | ctGet =>
    refine finishes_bind (getState_run _) ?_
    split
    · exact finishes_raise ..
    · exact (finishes_codeSymbolOperand s).bind fun _ _ _ => finishes_modState ..
  | hcWrite =>
    refine finishes_bind (getState_run _) ?_
    split
    case isTrue => exact finishes_raise ..
    case isFalse hvalid =>
      obtain ⟨tree, htree, -⟩ := htree (by simpa using hvalid)
      exact finishes_bind (writeHeader_run htree) (finishes_modState ..)
  | hcRead => exact (finishes_readHeader s).bind fun _ _ _ => finishes_modState ..
  | encCompress | encCompressF => exact finishes_ruleCompress s _
  | decDecompress =>
    exact (finishes_readHeader s).bind fun _ _ _ => (finishes_decodeBody _).bind fun _ _ _ => finishes_modState ..

end

/-- Settles O57: a rule that comes to its end completes or ends in an error, and both make the core idle. -/
theorem everyCommandCompletes : Obligations.EveryCommandCompletes := by
  intro i s htree
  have hfinishes := finishes_ruleOf s i htree
  rcases exec_cases i s with ⟨u, -, -, h⟩ | ⟨e, info, u, -, -, h⟩ | ⟨⟨r, hrun⟩, -⟩
  · exact ⟨_, h, rfl, rfl, rfl, rfl⟩
  · exact ⟨_, h, rfl, rfl, rfl, rfl⟩
  · rw [Finishes, hrun] at hfinishes
    exact hfinishes.elim

end Sys2Proof.Machine
end

section
/-! The bounds of SRC's cursor and of the tree's counts through every step (R45, R53). -/

namespace Sys2Proof.Machine

/-- The tree's counts fit their registers (R45). -/
def State.CountsFit (s : State) : Prop := s.nleaves ≤ 257 ∧ s.nnodes ≤ 513

section
variable {s t : State}

/-- The counts of a tree fit: it takes no slot twice, and it has one leaf more than it has other nodes (R46). -/
theorem State.HasTree.countsFit (h : s.HasTree) : s.CountsFit := by
  obtain ⟨tree, htree, hnodup, -, hnodes, hcount⟩ := h
  have hslots := (treeAt_of_treeOf htree).slots_length
  have hcard := hnodup.length_le_card
  rw [Fintype.card_fin] at hcard
  exact ⟨by omega, by omega⟩

/-- The counts of a tree of any values fit, since they are values of the registers. -/
theorem countsFit_scrambleTree (s : State) : (scrambleTree s).CountsFit := by
  rw [State.CountsFit, scrambleTree_nleaves, scrambleTree_nnodes]
  exact ⟨Nat.le_of_lt_succ (Fin.isLt _), Nat.le_of_lt_succ (Fin.isLt _)⟩

theorem countsFit_assertReset (s : State) : (assertReset s).CountsFit :=
  ⟨Nat.le_of_lt_succ (Fin.isLt _), Nat.le_of_lt_succ (Fin.isLt _)⟩

theorem countsFit_congr (h : t.treePart = s.treePart) : t.CountsFit ↔ s.CountsFit := by
  simp only [State.treePart, Prod.mk.injEq] at h
  obtain ⟨-, -, hnleaves, hnnodes⟩ := h
  rw [State.CountsFit, State.CountsFit, hnleaves, hnnodes]

theorem Frame.countsFit {w : List Area} (h : Frame w s t) (htree : .tree ∉ w) : s.CountsFit → t.CountsFit :=
  (countsFit_congr (h.tree htree)).2

end

/-! ### Rules -/

/-- What does not write the tree keeps its counts within their registers. -/
theorem Within.leads_countsFit {α : Type} {w : List Area} {x : Cmd α} (hx : Within w x) (htree : .tree ∉ w) :
    Leads State.CountsFit x (fun _ => State.CountsFit) State.CountsFit :=
  hx.leads fun _ _ h => h.countsFit htree

theorem leads_storeTree_countsFit :
    Leads State.CountsFit (modState storeTree) (fun _ => State.CountsFit) State.CountsFit :=
  .modState fun s _ => (storeTree_hasTree s).countsFit

theorem leads_ruleTbBuild_countsFit :
    Leads State.CountsFit ruleTbBuild (fun _ => State.CountsFit) State.CountsFit :=
  ((within_setTableValid (w := [.tableFlag]) (by decide) false).leads_countsFit (by decide)).bind fun _ =>
    leads_storeTree_countsFit.bind fun _ =>
    ((within_setTreeValid (w := [.treeFlag]) (by decide) true).leads_countsFit (by decide)).bind fun _ =>
    (Within.modState (w := []) fun _ => frame_free ..).leads_countsFit (by decide)

theorem leads_compressPass1_countsFit :
    Leads State.CountsFit compressPass1 (fun _ => State.CountsFit) State.CountsFit := by
  have hfree : ∀ {f : State → State}, (∀ s, Frame [] s (f s)) →
      Leads State.CountsFit (modState f) (fun _ => State.CountsFit) State.CountsFit :=
    fun hf => (Within.modState hf).leads_countsFit (by decide)
  have hcount : Within [.src, .freq, .totals] countPass := within_countPass (by decide) (by decide) (by decide)
  have htable : ∀ b, Within [.tableFlag] (setTableValid b) := within_setTableValid (by decide)
  have htree : Within [.treeFlag] (setTreeValid true) := within_setTreeValid (by decide) true
  have hfill : Within [.code] fillCode := within_fillCode (by decide)
  exact (hfree fun _ => frame_free ..).bind fun _ => (hcount.leads_countsFit (by decide)).bind fun _ =>
    ((htable false).leads_countsFit (by decide)).bind fun _ => leads_storeTree_countsFit.bind fun _ =>
    (htree.leads_countsFit (by decide)).bind fun _ => (hfill.leads_countsFit (by decide)).bind fun _ =>
    ((htable true).leads_countsFit (by decide)).bind fun _ => hfree fun _ => frame_free ..

theorem leads_ruleCompress_countsFit (force : Bool) :
    Leads State.CountsFit (ruleCompress force) (fun _ => State.CountsFit) State.CountsFit := by
  refine .bind_getState fun s hs => .of_imp (P := State.CountsFit) ?_ fun _ h => h ▸ hs
  split
  · exact .raise fun _ h => h
  · refine leads_compressPass1_countsFit.bind fun _ =>
      .bind_getState fun u hu => .of_imp (P := State.CountsFit) ?_ fun _ h => h ▸ hu
    split
    · exact within_compressPass2.leads_countsFit (by decide)
    · exact .pure fun _ h => h

/-- Reading a header leaves its tree or one of any values, and what follows does not write the tree. -/
theorem countsFit_of_readHeader {x : Cmd Unit} {w : List Area} (hx : Within w x) (htree : .tree ∉ w) (s : State) :
    (endRun ((readHeader >>= fun _ => x).run ⟨s, none⟩)).st.CountsFit := by
  rcases readHeader_cases s with ⟨u, hrun, -, -, hhas⟩ | ⟨e, info, u, hrun, -⟩
  · rw [bind_of_ok hrun]
    exact (hx.frame ⟨u, none⟩).countsFit htree hhas.countsFit
  · rw [bind_of_error hrun]
    exact countsFit_scrambleTree u

/-- A whole run of a rule leaves counts that fit. -/
theorem countsFit_ruleOf (i : Instr) {s : State} (h : s.CountsFit) :
    (endRun ((ruleOf i).run ⟨s, none⟩)).st.CountsFit := by
  have hleads : Leads State.CountsFit (ruleOf i) (fun _ => State.CountsFit) State.CountsFit →
      (endRun ((ruleOf i).run ⟨s, none⟩)).st.CountsFit := by
    intro hrule
    have hrun := hrule ⟨s, none⟩ h
    generalize (ruleOf i).run ⟨s, none⟩ = result at hrun ⊢
    cases result <;> exact hrun
  have hfree : ∀ {f : State → State}, (∀ s, Frame [] s (f s)) → Within [] (modState f) := .modState
  cases i with
  | tbBuild => exact hleads leads_ruleTbBuild_countsFit
  | encCompress | encCompressF => exact hleads (leads_ruleCompress_countsFit _)
  | hcRead => exact countsFit_of_readHeader (hfree fun _ => frame_free ..) (by decide) s
  | decDecompress =>
    have hbody : Within [.src, .snk] decodeBody := within_decodeBody (by decide) (by decide)
    exact countsFit_of_readHeader (hbody.bind fun _ => (hfree fun _ => frame_free ..).mono (by decide)) (by decide) s
  | nop | fcClear | fcCount | fcGet | fcAdd | fcSet | ctMake | ctGet | hcWrite =>
    exact hleads ((within_ruleOf _).leads_countsFit (by decide))

/-! ### Steps -/

section
variable {s t : State}

theorem boundsInv_iff : s.boundsInv ↔ s.src.pos ≤ s.src.bits.length ∧ s.CountsFit := Iff.rfl

theorem boundsInv_exec {i : Instr} (h : s.boundsInv) (hexec : exec i s = .next t) : t.boundsInv := by
  obtain ⟨hpos, hcounts⟩ := boundsInv_iff.1 h
  have hcounts := countsFit_ruleOf i hcounts
  rcases exec_cases i s with ⟨u, hframe, hrun, h'⟩ | ⟨e, info, u, hframe, hrun, h'⟩ | ⟨-, h'⟩ <;>
    cases Host.Outcome.next.inj (hexec.symm.trans h')
  · rw [hrun] at hcounts
    exact ⟨hframe.cursor hpos, hcounts⟩
  · rw [hrun] at hcounts
    exact ⟨hframe.cursor hpos, hcounts⟩
  · exact h

/-- What a host sees of SRC is within its bounds too, so reset keeps them (R363). -/
theorem live_cursor (h : s.src.pos ≤ s.src.bits.length) : (live s).src.pos ≤ (live s).src.bits.length := by
  rcases live_cases s with hlive | ⟨i, k, hlive⟩ <;> rw [hlive]
  · exact h
  · exact ((within_ruleOf i).frame ⟨s, some k⟩).cursor h

theorem boundsInv_advance (n : Nat) (h : s.boundsInv) : (advance n s).boundsInv := by
  unfold advance
  split <;> exact h

theorem Move.boundsInv (hmove : Move s t) (h : s.boundsInv) : t.boundsInv := by
  obtain ⟨hpos, hcounts⟩ := boundsInv_iff.1 h
  cases hmove with
  | quiet | operands | accepted | illegal => exact h
  | advanced n => exact boundsInv_advance n h
  | command hexec => exact boundsInv_exec h hexec
  | reset => exact ⟨live_cursor hpos, countsFit_assertReset s⟩
  | collaborated before after => exact ⟨by simp, hcounts⟩

end

/-- Settles O59: each move keeps the bounds. -/
theorem stepKeepsTheBounds : Obligations.StepKeepsTheBounds := by
  intro s t h hstep
  obtain ⟨agenda, hmove⟩ := move_of_step hstep
  exact hmove.boundsInv (s := { s with agenda := agenda }) h

end Sys2Proof.Machine
end

section
/-! What an error leaves (R332): where each rule may raise one, and what it has written before. -/

namespace Sys2Proof.Machine

/-! ### Pieces that raise nothing -/

section
variable {α β : Type}

/-- x may go on or be cut short, but it ends in no error. -/
structure NoError (x : Cmd α) : Prop where
  not_raised : ∀ r e info r', x.run r ≠ .error (.raised e info) r'

theorem noError_modState (f : State → State) : NoError (modState f) := ⟨by rintro r e info r' ⟨⟩⟩

theorem noError_stillRunning : NoError (stillRunning : Cmd α) := ⟨by rintro r e info r' ⟨⟩⟩

theorem noError_tick : NoError tick := ⟨by rintro ⟨s, _ | _ | k⟩ e info r' ⟨⟩⟩

theorem NoError.bind {x : Cmd α} {f : α → Cmd β} (hx : NoError x) (hf : ∀ a, NoError (f a)) : NoError (x >>= f) := by
  refine ⟨fun r e info r' => ?_⟩
  rw [bind_run]
  rcases hrun : x.run r with ⟨a, u⟩ | ⟨e' | _, u⟩
  · exact (hf a).not_raised u e info r'
  · exact absurd hrun (hx.not_raised r e' _ u)
  · exact nofun

theorem NoError.bind_getState {f : State → Cmd β} (hf : ∀ s, NoError (f s)) : NoError (getState >>= f) :=
  ⟨fun r => (hf r.st).not_raised r⟩

end

theorem noError_snkWrite (n v : Nat) : NoError (snkWrite n v) := noError_tick.bind fun _ => noError_modState _

theorem noError_emit (fuel : Nat) (i : Slot) : NoError (emit fuel i) := by
  induction fuel generalizing i with
  | zero => exact noError_stillRunning
  | succ fuel ih =>
    refine .bind_getState fun s => ?_
    split
    · exact (noError_snkWrite ..).bind fun _ => (noError_snkWrite ..).bind fun _ => noError_modState _
    · exact (noError_snkWrite ..).bind fun _ => (noError_modState _).bind fun _ => (ih _).bind fun _ => ih _

theorem noError_writeHeader : NoError writeHeader :=
  .bind_getState fun _ => (noError_snkWrite ..).bind fun _ => (noError_modState _).bind fun _ => noError_emit ..

/-! ### What is left where a rule stops -/

/-- Two things that are known where a rule stops. -/
theorem Leads.and_stop {α : Type} {P E E' : State → Prop} {Q : α → State → Prop} {x : Cmd α} (h : Leads P x Q E)
    (h' : Leads P x (fun _ _ => True) E') : Leads P x Q fun s => E s ∧ E' s := by
  intro r hr
  have h := h r hr
  have h' := h' r hr
  generalize x.run r = result at h h' ⊢
  cases result with
  | ok a r' => exact h
  | error e r' => exact ⟨h, h'⟩

/-- A rule that ends well may be left out of sight. -/
theorem Leads.of_ok {α : Type} {P E : State → Prop} {Q Q' : α → State → Prop} {x : Cmd α} (h : Leads P x Q E)
    (hQ : ∀ a s, Q a s → Q' a s) : Leads P x Q' E := by
  intro r hr
  have h := h r hr
  generalize x.run r = result at h ⊢
  cases result with
  | ok a r' => exact hQ a _ h
  | error e r' => exact h

section
variable {s : State}

theorem leads_symbolOperand_same : Leads (· = s) symbolOperand (fun _ => (· = s)) (· = s) := by
  refine .bind_getState fun u hu => ?_
  split
  · exact .pure fun _ h => h.trans hu
  · exact .raise fun _ h => h.trans hu

/-- FC_ADD writes an entry in its last step only (R183). -/
theorem leads_ruleFcAdd_same : Leads (· = s) ruleFcAdd (fun _ _ => True) (· = s) := by
  refine leads_symbolOperand_same.bind fun i => .bind_getState fun u hu => ?_
  split
  · exact .raise fun _ h => h.trans hu
  · exact .modState fun _ _ => trivial

/-- FC_SET writes an entry in its last step only (R184). -/
theorem leads_ruleFcSet_same : Leads (· = s) ruleFcSet (fun _ _ => True) (· = s) :=
  leads_symbolOperand_same.bind fun _ => .modState fun _ _ => trivial

/-- HC_WRITE may end in an error before it writes anything (R240). -/
theorem ruleHcWrite_raised {r r' : Run} {e : ErrKind} {info : Word}
    (h : ruleHcWrite.run r = .error (.raised e info) r') : r' = r := by
  rw [ruleHcWrite, bind_of_ok (getState_run _)] at h
  split at h
  · cases h
    rfl
  · exact absurd h ((noError_writeHeader.bind fun _ => noError_modState _).not_raised r e info r')

/-- CT_MAKE sets its flag in its last step only (R220). -/
theorem leads_ruleCtMake_flag :
    Leads (fun _ => True) ruleCtMake (fun _ _ => True) (·.status.tableValid = false) := by
  have hfill : Leads (·.status.tableValid = false) ctMakeFill (fun _ s => s.status.tableValid = false)
      (·.status.tableValid = false) :=
    within_ctMakeFill.leads fun _ _ h hs => (h.tableFlag (by decide)).trans hs
  exact (Leads.modState (Q := fun _ s => s.status.tableValid = false) fun s _ => rfl).bind fun _ => hfill.bind fun _ =>
    (Leads.completing fun _ h => h).bind fun _ => .modState fun _ _ => trivial

/-- A header that is not read to the end leaves neither flag set (R243). -/
theorem leads_ruleHcRead_stop : Leads (fun _ => True) ruleHcRead (fun _ _ => True) State.NothingValid :=
  leads_readHeader.bind fun _ => .modState fun _ _ => trivial

/-- A decoder that stops leaves no table, and it has written nothing unless a tree was read (R281 to R285). -/
theorem leads_ruleDecompress_stop (b : Bits) :
    Leads (·.snk = b) ruleDecompress (fun _ _ => True)
      fun s => s.status.tableValid = false ∧ (s.status.treeValid = false → s.snk = b) := by
  have houtput : Leads (·.snk = b) readHeader (fun _ _ => True) (·.snk = b) :=
    ((within_readHeader (w := [.src, .tree, .treeFlag, .tableFlag]) (by decide) (by decide) (by decide)
      (by decide)).leads fun _ _ h hs => (h.snk (by decide)).trans hs).of_ok fun _ _ _ => trivial
  have hheader := (leads_readHeader.of_imp (P' := (·.snk = b)) fun _ _ => trivial).and_stop houtput
  have hbody : Leads State.TreeOnly decodeBody (fun _ => State.TreeOnly) State.TreeOnly :=
    (within_decodeBody (w := [.src, .snk]) (by decide) (by decide)).leads fun _ _ h =>
      h.treeOnly (by decide) (by decide) (by decide)
  exact (hheader.of_stop fun s h => ⟨h.1.2, fun _ => h.2⟩).bind fun _ =>
    (hbody.of_stop fun s h => ⟨h.2.1, fun hvalid => absurd h.1 (ne_true_of_eq_false hvalid)⟩).bind fun _ =>
    .modState fun _ _ => trivial

/-! ### WROTE -/

/-- What does not write WROTE keeps it. -/
theorem Within.leads_wrote {α : Type} {w : List Area} {x : Cmd α} (hx : Within w x) (hw : .wroteFlag ∉ w) (b : Bool) :
    Leads (·.status.wrote = b) x (fun _ s => s.status.wrote = b) (·.status.wrote = b) :=
  hx.leads fun _ _ h hs => (h.wroteFlag hw).trans hs

/-- Pass 2 sets WROTE in its last step only (R264). -/
theorem leads_compressPass2_wrote (b : Bool) :
    Leads (·.status.wrote = b) compressPass2 (fun _ _ => True) (·.status.wrote = b) := by
  have hpass : Within [] (modState (setPass 2)) := .modState fun _ => frame_free ..
  have hrewind : Within [.src] srcRewind := within_srcRewind (by decide)
  have hheader : Within [.snk] writeHeader := within_writeHeader (by decide)
  have hloop : ∀ fuel, Within [.src, .snk] (encodeLoop fuel) := within_encodeLoop (by decide) (by decide)
  have hcode : ∀ bits, Within [.snk] (snkWriteBits bits) := within_snkWriteBits (by decide)
  have hset : Leads (·.status.wrote = b) (setWrote true) (fun _ _ => True) (·.status.wrote = b) :=
    .tick_modState (fun _ h => h) fun _ _ => trivial
  exact (hpass.leads_wrote (by decide) b).bind fun _ => (hrewind.leads_wrote (by decide) b).bind fun _ =>
    (hheader.leads_wrote (by decide) b).bind fun _ => .bind_getState fun u hu =>
    (((hloop _).leads_wrote (by decide) b).bind fun _ => .bind_getState fun v hv =>
      (((hcode _).leads_wrote (by decide) b).bind fun _ => hset).of_imp fun _ h => h ▸ hv).of_imp fun _ h => h ▸ hu

theorem leads_ruleCompress_wrote (force : Bool) (b : Bool) :
    Leads (·.status.wrote = b) (ruleCompress force) (fun _ _ => True) (·.status.wrote = b) := by
  refine .bind_getState fun s hs => .of_imp (P := (·.status.wrote = b)) ?_ fun _ h => h ▸ hs
  split
  · exact .raise fun _ h => h
  · refine (within_compressPass1.leads_wrote (by decide) b).bind fun _ =>
      .bind_getState fun u hu => .of_imp (P := (·.status.wrote = b)) ?_ fun _ h => h ▸ hu
    split
    · exact leads_compressPass2_wrote b
    · exact .pure fun _ _ => trivial

theorem leads_ruleOf_wrote (i : Instr) (b : Bool) :
    Leads (·.status.wrote = b) (ruleOf i) (fun _ _ => True) (·.status.wrote = b) := by
  cases i with
  | encCompress | encCompressF => exact leads_ruleCompress_wrote _ b
  | _ => exact ((within_ruleOf _).leads_wrote (by decide) b).of_ok fun _ _ _ => trivial

end

/-! ### The table of errors -/

section
variable {i : Instr} {s u t : State} {e : ErrKind} {info : Word}

/-- What is known where a rule stops is known of an error's state. -/
theorem Leads.of_raised {α : Type} {P E : State → Prop} {Q : α → State → Prop} {x : Cmd α} (h : Leads P x Q E)
    (hs : P s) (hrun : x.run ⟨s, none⟩ = .error (.raised e info) ⟨u, none⟩) : E u := by
  have h := h ⟨s, none⟩ hs
  rwa [hrun] at h

/-- A command that ends in an error has raised it. -/
theorem exec_error (herr : s.status.err = false) (h : exec i s = .next t) (ht : t.status.err = true) :
    ∃ e info u, Frame (areasOf i) s u ∧ (ruleOf i).run ⟨s, none⟩ = .error (.raised e info) ⟨u, none⟩ ∧
      t = endInError e info u := by
  rcases exec_cases i s with ⟨u, hframe, -, hexec⟩ | ⟨e, info, u, hframe, hrun, hexec⟩ | ⟨-, hexec⟩ <;>
    cases Host.Outcome.next.inj (h.symm.trans hexec)
  · obtain ⟨⟨-, -, hkept, -⟩, -⟩ := hframe.control
    exact absurd ht (ne_true_of_eq_false (hkept.trans herr))
  · exact ⟨e, info, u, hframe, hrun, rfl⟩
  · exact absurd ht (ne_true_of_eq_false herr)

/-- The commands on operands and on the tree leave the counts and the streams as they were (R332). -/
theorem countsAndStreams_of_raised (hi : i ∈ [Instr.fcGet, .fcAdd, .fcSet, .ctGet, .ctMake, .hcWrite])
    (hframe : Frame (areasOf i) s u) (hrun : (ruleOf i).run ⟨s, none⟩ = .error (.raised e info) ⟨u, none⟩) :
    u.freq = s.freq ∧ (u.total, u.skipped) = (s.total, s.skipped) ∧ u.src = s.src ∧ u.snk = s.snk := by
  have hsame : u = s → u.freq = s.freq ∧ (u.total, u.skipped) = (s.total, s.skipped) ∧ u.src = s.src ∧ u.snk = s.snk :=
    fun h => h ▸ ⟨rfl, rfl, rfl, rfl⟩
  cases i with
  | fcAdd => exact hsame (leads_ruleFcAdd_same.of_raised rfl hrun)
  | fcSet => exact hsame (leads_ruleFcSet_same.of_raised rfl hrun)
  | hcWrite => exact hsame (congrArg Run.st (ruleHcWrite_raised hrun))
  | fcGet | ctGet | ctMake =>
    exact ⟨hframe.freq (by decide), hframe.totals (by decide), hframe.src (by decide), hframe.snk (by decide)⟩
  | _ => exact absurd hi (by decide)

end

/-- Settles O55: each rule raises its errors before the writes that the table does not name. -/
theorem errorsLeaveWhatTheTableSays : Obligations.ErrorsLeaveWhatTheTableSays := by
  intro i s t _ herr hexec ht
  obtain ⟨e, info, u, hframe, hrun, rfl⟩ := exec_error herr hexec ht
  have hwrote : u.status.wrote = s.status.wrote := (leads_ruleOf_wrote i _).of_raised rfl hrun
  refine ⟨rfl, rfl, hwrote, fun hi => ?_, ?_, ?_, ?_⟩
  · obtain ⟨hfreq, htotals, hsrc, hsnk⟩ := countsAndStreams_of_raised hi hframe hrun
    obtain ⟨htotal, hskipped⟩ := Prod.mk.inj htotals
    exact ⟨hfreq, htotal, hskipped, hsrc, hsnk⟩
  · rintro rfl
    have hflag : u.status.tableValid = false := leads_ruleCtMake_flag.of_raised trivial hrun
    exact hflag
  · rintro rfl
    obtain ⟨htree, htable⟩ := leads_ruleHcRead_stop.of_raised trivial hrun
    exact ⟨htree, htable, hframe.snk (by decide)⟩
  · rintro rfl
    have hstop : u.status.tableValid = false ∧ (u.status.treeValid = false → u.snk = s.snk) :=
      (leads_ruleDecompress_stop s.snk).of_raised rfl hrun
    exact hstop

end Sys2Proof.Machine
end

section
/-! Which command words are illegal (R136). -/

namespace Sys2Proof.Machine

/-- The opcodes that name a command (R134). -/
def assignedOpcodes : List (BitVec 8) :=
  [0x00, 0x01, 0x02, 0x03, 0x04, 0x05, 0x10, 0x20, 0x21, 0x30, 0x31, 0x40, 0x50]

theorem opcodeOf_mem_assignedOpcodes (i : Instr) : opcodeOf i ∈ assignedOpcodes := by cases i <;> decide

/-- An assigned opcode names a command, whatever F is. -/
theorem commandOfOp_isSome {op : BitVec 8} (h : op ∈ assignedOpcodes) (force : Bool) : (commandOfOp op force).isSome := by
  simp only [assignedOpcodes, List.mem_cons, List.not_mem_nil, or_false] at h
  rcases h with rfl | rfl | rfl | rfl | rfl | rfl | rfl | rfl | rfl | rfl | rfl | rfl | rfl <;> rfl

theorem commandOfOp_eq_none_iff {op : BitVec 8} {force : Bool} :
    commandOfOp op force = none ↔ op ∉ assignedOpcodes := by
  constructor
  · intro hnone hmem
    simpa [hnone] using commandOfOp_isSome hmem force
  · intro hmem
    refine Option.eq_none_iff_forall_ne_some.2 fun i hi => hmem ?_
    rw [opcodeOf_of_commandOfOp hi]
    exact opcodeOf_mem_assignedOpcodes i

/-- The decoder refuses a word for its OP, its RES or its F. -/
theorem decode_eq_error_iff {w : Word} : (∃ e, decode w = .error e) ↔
    commandOfOp (cmdFields w).op (cmdFields w).force = none ∨ (cmdFields w).resZero = false ∨
      (cmdFields w).forceAllowed = false := by
  simp only [decode]
  cases commandOfOp (cmdFields w).op (cmdFields w).force <;> cases (cmdFields w).resZero <;>
    cases (cmdFields w).forceAllowed <;> simp

/-- Settles O3: the decoder's three checks are the three conditions on the bits of the word. -/
theorem illegalWordsAreTheOnesListed : Obligations.IllegalWordsAreTheOnesListed := by
  intro w
  have hres : (cmdFields w).resZero = false ↔ w.extractLsb' 9 23 ≠ 0 := beq_eq_false_iff_ne
  have hforce : (cmdFields w).forceAllowed = false ↔ w.getLsbD 8 = true ∧ w.extractLsb' 0 8 ≠ 0x40 := by
    simp [CmdWord.forceAllowed, cmdFields]
  rw [decode_eq_error_iff, commandOfOp_eq_none_iff, hres, hforce]
  rfl

/-- Settles O1: the decoder reads back each encoding, and the encodings are these numbers. -/
theorem legalWordsDecode : Obligations.LegalWordsDecode :=
  ⟨decode_encode .nop, decode_encode .fcClear, decode_encode .fcCount, decode_encode .fcGet, decode_encode .fcAdd,
    decode_encode .fcSet, decode_encode .tbBuild, decode_encode .ctMake, decode_encode .ctGet, decode_encode .hcWrite,
    decode_encode .hcRead, decode_encode .encCompress, decode_encode .encCompressF, decode_encode .decDecompress⟩

end Sys2Proof.Machine
end

section
/-! The sequencer and the register window: when the core moves (R160, R362), what a host's access does (R95 to R99,
R107), and what reset and the collaborators do (R53, R360, R363). -/

namespace Sys2Proof.Machine

/-! ### The core's own move -/

section
variable {s : State} {k : Nat}

theorem coreMove_of_ok {i : Instr} (hphase : s.phase = .run k) (h : decode s.cmd = .ok i) : coreMove s = exec i s := by
  rw [coreMove, hphase, h]

theorem coreMove_of_error {e : IllegalWord} (hphase : s.phase = .run k) (h : decode s.cmd = .error e) :
    coreMove s = .next (rejectIllegal s) := by
  rw [coreMove, hphase, h]

theorem coreMove_of_idle (hphase : s.phase = .idle) : coreMove s = .next s := by rw [coreMove, hphase]

theorem advance_of_run (n : Nat) (hphase : s.phase = .run k) : advance n s = { s with phase := .run (k + n) } := by
  rw [advance, hphase]

end

/-- Settles O4: with nothing scheduled a step is the core's own move. -/
theorem stepRunsTheDecodedCommand : Obligations.StepRunsTheDecodedCommand :=
  ⟨fun _ _ _ hagenda hphase hdecode => (step_of_no_event hagenda).trans (coreMove_of_ok hphase hdecode),
    fun _ hagenda hphase => (step_of_no_event hagenda).trans (coreMove_of_idle hphase)⟩

/-- Settles O5: the two events of the core are its move and its progress. -/
theorem coreMovesWhereScheduled : Obligations.CoreMovesWhereScheduled := by
  intro s rest k n i hphase hdecode
  refine ⟨fun hagenda => ?_, fun hagenda => ?_⟩
  · exact (step_of_event hagenda).trans (coreMove_of_ok (s := { s with agenda := rest }) hphase hdecode)
  · exact (step_of_event hagenda).trans
      (congrArg Host.Outcome.next (advance_of_run (s := { s with agenda := rest }) n hphase))

/-- Settles O6: the core's move on a word that does not decode is an end in IllegalCommand. -/
theorem illegalWordRunsNothing : Obligations.IllegalWordRunsNothing := by
  intro s rest k e hphase hdecode
  refine ⟨rfl, fun hagenda => ?_, fun hagenda => ?_⟩
  · exact ⟨_, (step_of_no_event hagenda).trans (coreMove_of_error hphase hdecode), endsInError_endInError ..⟩
  · exact ⟨_, (step_of_event hagenda).trans (coreMove_of_error (s := { s with agenda := rest }) hphase hdecode),
      endsInError_endInError ..⟩

/-! ### The registers of the window -/

section
variable {off size : Nat} {r r' : Reg}

/-- The operands and CMD are each at one word of the window (R31). -/
theorem regAt_writable (h : regAt off = some r) :
    (r = .cmd → off / 4 = 2) ∧ (r = .arg0 → off / 4 = 4) ∧ (r = .arg1 → off / 4 = 5) := by
  unfold regAt at h
  split at h <;> cases h <;> simp_all

theorem regAt_of_ge (h : 0x40 ≤ off) : regAt off = none := by
  obtain ⟨n, hn⟩ := Nat.exists_eq_add_of_le' (show 16 ≤ off / 4 by omega)
  rw [regAt, hn]
  rfl

theorem regAt_reserved (hlow : 0x30 ≤ off) (hwindow : off < 0x40) : regAt off = some .reserved := by
  unfold regAt
  have hword : 12 ≤ off / 4 ∧ off / 4 < 16 := by omega
  generalize off / 4 = n at hword ⊢
  obtain ⟨hge, hlt⟩ := hword
  interval_cases n <;> rfl

theorem accessedReg_four (haligned : off % 4 = 0) : accessedReg off 4 = regAt off := if_pos ⟨rfl, haligned⟩

/-- An access of another size, at a misaligned offset or from 0x40 on reaches no register (R95, R96). -/
theorem accessedReg_of_bad (h : size ≠ 4 ∨ off % 4 ≠ 0 ∨ 0x40 ≤ off) : accessedReg off size = none := by
  unfold accessedReg
  split
  case isTrue hgood =>
    obtain ⟨hsize, haligned⟩ := hgood
    refine regAt_of_ge ?_
    omega
  case isFalse => rfl

end

/-! ### Writes -/

section
variable {s : State} {r : Reg} {v : Word}

/-- Where a command wants SRC's cursor (R111). -/
theorem srcInPlace_iff {i : Instr} {src : Src} : srcInPlace i src = true ↔
    (i = .encCompress ∨ i = .encCompressF → src.pos = 0) ∧ (i = .hcRead ∨ i = .decDecompress → src.pos = src.start) := by
  cases i <;> simp [srcInPlace]

/-- A write of CMD keeps the host's duties where the command it starts finds SRC in its place (R111). -/
theorem keepsDuties_cmd (hbusy : s.status.busy = false) : keepsDuties .cmd v s = true ↔
    (decode v = .ok .encCompress ∨ decode v = .ok .encCompressF → s.src.pos = 0) ∧
      (decode v = .ok .hcRead ∨ decode v = .ok .decDecompress → s.src.pos = s.src.start) := by
  unfold keepsDuties
  cases decode v with
  | error e => simp [hbusy]
  | ok i => simp [hbusy, srcInPlace_iff]

/-- On an idle core a write of CMD is the acceptance of a command (R160). -/
theorem writeReg_cmd (hbusy : s.status.busy = false) (v : Word) :
    writeReg .cmd v s = { accept v s with bus := .written } := by
  simp [writeReg, writeEffect, hbusy]

theorem writeReg_arg0 (hbusy : s.status.busy = false) (v : Word) :
    writeReg .arg0 v s = { s with bus := .written, arg0 := v } := by
  simp [writeReg, writeEffect, hbusy]

theorem writeReg_arg1 (hbusy : s.status.busy = false) (v : Word) :
    writeReg .arg1 v s = { s with bus := .written, arg1 := v } := by
  simp [writeReg, writeEffect, hbusy]

theorem hostWriteReg_of_ne_cmd (hr : r ≠ .cmd) : hostWriteReg r v s = .next (writeReg r v s) :=
  if_pos (keepsDuties_of_ne_cmd hr v s)

/-- A register that is none of CMD, ARG0 and ARG1 drops what is written to it (R98). -/
theorem writeReg_other (hbusy : s.status.busy = false) (hcmd : r ≠ .cmd) (harg0 : r ≠ .arg0) (harg1 : r ≠ .arg1) :
    writeReg r v s = { s with bus := .written } := by
  cases r with
  | cmd => exact absurd rfl hcmd
  | arg0 => exact absurd rfl harg0
  | arg1 => exact absurd rfl harg1
  | _ => simp [writeReg, writeEffect, hbusy]

end

/-- Settles O7: what the host's duties ask of a write of CMD decides between acceptance and a refusal. -/
theorem cmdWriteIsAccepted : Obligations.CmdWriteIsAccepted := by
  intro s rest v hagenda hreset hbusy
  have hstep := step_of_hostWrite (r := .cmd) hagenda hreset rfl
  have hduties := keepsDuties_cmd (v := v) (s := { s with agenda := rest }) hbusy
  refine ⟨fun hkept => ?_, fun hbroken => ?_⟩
  · rw [hstep, hostWriteReg, if_pos (hduties.2 hkept), writeReg_cmd (s := { s with agenda := rest }) hbusy]
    rfl
  · rw [hstep, hostWriteReg, if_neg (mt hduties.1 hbroken)]

/-- Settles O9: of the registers other than CMD only ARG0 and ARG1 take a write. -/
theorem idleWritesReachOnlyTheOperands : Obligations.IdleWritesReachOnlyTheOperands := by
  intro s rest off v hagenda hreset hbusy
  have hstep : ∀ r, accessedReg off 4 = some r → r ≠ .cmd → step s = .next (writeReg r v { s with agenda := rest }) :=
    fun r hreg hr => (step_of_hostWrite hagenda hreset hreg).trans (hostWriteReg_of_ne_cmd hr)
  refine ⟨?_, ?_, fun haligned hwindow hcmd harg0 harg1 => ?_⟩
  · rintro rfl
    exact (hstep .arg0 rfl (by decide)).trans (congrArg _ (writeReg_arg0 (s := { s with agenda := rest }) hbusy v))
  · rintro rfl
    exact (hstep .arg1 rfl (by decide)).trans (congrArg _ (writeReg_arg1 (s := { s with agenda := rest }) hbusy v))
  · obtain ⟨r, hreg⟩ := accessedReg_of_aligned haligned hwindow
    obtain ⟨hcmd', harg0', harg1'⟩ := regAt_writable ((accessedReg_four haligned).symm.trans hreg)
    have hr : r ≠ .cmd := fun h => absurd (hcmd' h) (by omega)
    exact (hstep r hreg hr).trans (congrArg _ (writeReg_other (s := { s with agenda := rest }) hbusy hr
      (fun h => absurd (harg0' h) (by omega)) fun h => absurd (harg1' h) (by omega)))

/-! ### Reads -/

section
variable {s : State}

/-- Out of reset a read of a register is answered by that register. -/
theorem step_of_hostRead {rest : List Event} {off size : Nat} {r : Reg} (hagenda : s.agenda = .hostRead off size :: rest)
    (hreset : s.resetLine = false) (hreg : accessedReg off size = some r) :
    step s = .next (readReg r { s with agenda := rest }) := by
  simp [step_of_event hagenda, perform, hostAccess, hreset, hreg]

theorem readReg_of_idle (hbusy : s.status.busy = false) (hphase : s.phase = .idle) (r : Reg) :
    readReg r s = { s with bus := .data (regValue s r) } := by
  have hlive : live s = s := by rw [live, hphase]
  rw [readReg, hbusy, hlive]
  rfl

/-- While a command runs a read answers what the register shows, or some value (R107). -/
theorem readReg_of_busy (hbusy : s.status.busy = true) (r : Reg) :
    ∃ v d, readReg r s = { s with bus := .data v, draws := d } ∧
      (unspecifiedWhileBusy r = false → v = regValue (live s) r) := by
  cases hr : unspecifiedWhileBusy r with
  | true => exact ⟨_, _, by rw [readReg, hbusy, hr]; rfl, nofun⟩
  | false => exact ⟨_, s.draws, by rw [readReg, hr, Bool.and_false]; rfl, fun _ => rfl⟩

/-- A running command shows the parts that no rule changes as they are. -/
theorem live_fixedPart (s : State) : (live s).fixedPart = s.fixedPart := by
  rcases live_cases s with hlive | ⟨i, k, hlive⟩ <;> rw [hlive]
  exact ((within_ruleOf i).frame ⟨s, some k⟩).fixed

end

/-- The fields of a word that is put together of them. -/
theorem toNat_append_eq_add {n m : Nat} (x : BitVec n) (y : BitVec m) :
    (x ++ y).toNat = x.toNat * 2 ^ m + y.toNat := by
  rw [BitVec.toNat_append, ← Nat.shiftLeft_add_eq_or_of_lt y.isLt, Nat.shiftLeft_eq]

theorem statusWord_toNat (f : Status) : (statusWord f).toNat =
    f.busy.toNat + 2 * f.done.toNat + 4 * f.err.toNat + 8 * f.treeValid.toNat + 16 * f.tableValid.toNat +
      32 * f.wrote.toNat + 256 * f.errcode.toNat := by
  simp only [statusWord, toNat_append_eq_add, BitVec.toNat_ofBool, BitVec.toNat_ofNat]
  omega

/-- BUSY is bit 0 of STATUS (R36). -/
theorem statusWord_getLsbD_zero (f : Status) : (statusWord f).getLsbD 0 = f.busy := by
  rw [statusWord, BitVec.getLsbD_append, if_pos Nat.zero_lt_one]
  cases f.busy <;> rfl

theorem configWord_toNat (s : State) : (configWord s).toNat = s.build.symInW + 256 * s.src.rewindable.toNat := by
  have hwidth : s.build.symInW < 2 ^ 5 := by
    have := s.build.symExtra.isLt
    rw [BuildParams.symInW]
    omega
  simp only [configWord, toNat_append_eq_add, BitVec.toNat_ofBool, BitVec.toNat_ofNat, Nat.mod_eq_of_lt hwidth]
  omega

/-- Settles O10: the idle core answers the register that stands at the offset. -/
theorem idleReadsReturnTheRegisters : Obligations.IdleReadsReturnTheRegisters := by
  intro s rest off hagenda hreset hbusy hphase haligned hwindow
  obtain ⟨r, hreg⟩ := accessedReg_of_aligned haligned hwindow
  have hvalue : ∀ {o : Nat} (r' : Reg), off = o → accessedReg o 4 = some r' →
      regValue { s with agenda := rest } r = regValue { s with agenda := rest } r' := by
    rintro _ r' rfl hreg'
    rw [Option.some.inj (hreg.symm.trans hreg')]
  refine ⟨_, (step_of_hostRead hagenda hreset hreg).trans
      (congrArg Host.Outcome.next (readReg_of_idle (s := { s with agenda := rest }) hbusy hphase r)),
    (hvalue .id · rfl), (hvalue .magic · rfl), (hvalue .cmd · rfl), fun h => ?_, (hvalue .arg0 · rfl),
    (hvalue .arg1 · rfl), (hvalue .result0 · rfl), (hvalue .result1 · rfl), (hvalue .total · rfl),
    (hvalue .skipped · rfl), (hvalue .errinfo · rfl), fun h => ?_, fun hlow => ?_⟩
  · rw [hvalue .status h rfl]
    exact statusWord_toNat s.status
  · rw [hvalue .config h rfl]
    exact configWord_toNat { s with agenda := rest }
  · exact hvalue .reserved rfl ((accessedReg_four haligned).trans (regAt_reserved hlow hwindow))

/-- Settles O11: what a busy core answers exactly is what a host sees of the running command. -/
theorem busyReadsAreExactOrUnspecified : Obligations.BusyReadsAreExactOrUnspecified := by
  intro s rest off k hagenda hreset hbusy hphase haligned hwindow
  obtain ⟨r, hreg⟩ := accessedReg_of_aligned haligned hwindow
  obtain ⟨v, d, hread, hexact⟩ := readReg_of_busy (s := { s with agenda := rest }) hbusy r
  have hvalue : ∀ {o : Nat} (r' : Reg), off = o → accessedReg o 4 = some r' → unspecifiedWhileBusy r' = false →
      v = regValue (live { s with agenda := rest }) r' := by
    rintro _ r' rfl hreg' hr'
    obtain rfl := Option.some.inj (hreg.symm.trans hreg')
    exact hexact hr'
  have hfixed := live_fixedPart { s with agenda := rest }
  simp only [State.fixedPart, Prod.mk.injEq] at hfixed
  obtain ⟨hbuild, hcmd, harg0, harg1, -, -, -, -, -, -, hrewindable, -, hlive, -⟩ := hfixed
  refine ⟨v, d, (step_of_hostRead hagenda hreset hreg).trans (congrArg Host.Outcome.next hread),
    (hvalue .id · rfl rfl), fun h => ?_, fun h => ?_, fun h => ?_, fun h => ?_, fun h => ?_, fun h => ?_,
    fun hlow => ?_⟩
  · exact (hvalue .magic h rfl rfl).trans (congrArg BuildParams.hdrMagic hbuild)
  · exact (hvalue .cmd h rfl rfl).trans hcmd
  · have hstatus := hvalue .status h rfl rfl
    refine ⟨hstatus, ?_⟩
    rw [hstatus]
    exact (statusWord_getLsbD_zero _).trans (hlive.trans hbusy)
  · exact (hvalue .arg0 h rfl rfl).trans harg0
  · exact (hvalue .arg1 h rfl rfl).trans harg1
  · rw [hvalue .config h rfl rfl]
    exact (configWord_toNat _).trans (by rw [hbuild, hrewindable])
  · exact hvalue .reserved rfl ((accessedReg_four haligned).trans (regAt_reserved hlow hwindow)) rfl

/-! ### Accesses that are not taken, reset and the collaborators -/

theorem hostAccess_of_bad {s : State} {off size : Nat} (hreset : s.resetLine = false) (h : accessedReg off size = none)
    (take : Reg → State → Host.Outcome State Fault Refusal) : hostAccess off size take s = badAccess s := by
  rw [hostAccess, hreset, h]
  rfl

/-- Settles O12: the core answers an access that reaches no register as its bus lets it. -/
theorem badAccessesChangeNothing : Obligations.BadAccessesChangeNothing := by
  intro s rest off size v hagenda hreset hbad
  have hstep : step s = badAccess { s with agenda := rest } := by
    rcases hagenda with hagenda | hagenda <;> rw [step_of_event hagenda, perform] <;>
      exact hostAccess_of_bad (s := { s with agenda := rest }) hreset (accessedReg_of_bad hbad) _
  exact ⟨fun hbus => ⟨_, _, hstep.trans (if_pos hbus)⟩, fun hbus => hstep.trans (if_neg (ne_true_of_eq_false hbus))⟩

/-- Settles O13. -/
theorem resetAbandonsTheCommand : Obligations.ResetAbandonsTheCommand := by
  refine ⟨fun s rest off size v hreset => ⟨fun hagenda => ?_, fun hagenda => ?_, step_of_event⟩, fun s rest hagenda => ?_⟩
  · exact (step_of_event hagenda).trans (if_pos hreset)
  · exact (step_of_event hagenda).trans (if_pos hreset)
  · exact ⟨_, step_of_event hagenda, rfl, rfl, rfl, rfl, rfl, rfl, rfl, rfl, rfl, rfl, rfl, rfl, rfl, rfl, rfl, rfl⟩

/-- Settles O14: the phase decides whether a move of the collaborators is one of the model's. -/
theorem streamsMoveOnlyBetweenCommands : Obligations.StreamsMoveOnlyBetweenCommands := by
  intro s rest before after snk rw hagenda
  rw [step_of_event hagenda, perform, collaborate]
  cases s.phase with
  | idle => exact ⟨fun _ => rfl, fun h => absurd rfl h⟩
  | run k => exact ⟨nofun, fun _ => rfl⟩

/-! ### Commands that end at once -/

/-- Settles O19. -/
theorem nopOnlyCompletes : Obligations.NopOnlyCompletes :=
  ⟨rfl, fun s => exec_of_ok (i := .nop) (pure_run () ⟨s, none⟩)⟩

/-- Settles O20. -/
theorem fcClearEmptiesTheTable : Obligations.FcClearEmptiesTheTable :=
  ⟨rfl, fun s => exec_of_ok (i := .fcClear) (modState_run clearCounts ⟨s, none⟩)⟩

/-- Settles O45: the encoder asks whether SRC can rewind before anything else. -/
theorem compressNeedsARewindableSource : Obligations.CompressNeedsARewindableSource := by
  intro s i hi hrewind
  have hrun : ∀ force, (ruleCompress force).run ⟨s, none⟩ = .error (.raised .rewindUnsupported 0) ⟨s, none⟩ := by
    intro force
    rw [ruleCompress, bind_of_ok (getState_run _), if_pos hrewind, raise_run]
  rcases hi with rfl | rfl <;> exact exec_endsInError (hrun _)

/-! ### Reset -/

/-- Settles O60: no flag is set, SRC is empty, and the tree's counts are values of their registers. -/
theorem resetClearsTheRegisters : Obligations.ResetClearsTheRegisters := by
  have hnone : State.reset.NothingValid := ⟨rfl, rfl⟩
  obtain ⟨htree, htable⟩ := hnone.sound
  refine ⟨rfl, rfl, rfl, rfl, rfl, rfl, rfl, rfl, rfl, rfl, rfl, ⟨⟨?_, ?_, ?_⟩, ?_, rfl⟩, htree, htable, Nat.le_refl 0,
    Nat.le_of_lt_succ (Fin.isLt _), Nat.le_of_lt_succ (Fin.isLt _)⟩
  all_goals simp [State.reset, State.resetWith, Status.clear]

end Sys2Proof.Machine
end
